-- ==== Sys2Proof/Word.lean ====
section
/-! DEFINITION. The word types of the block: the byte of a register access, the 32-bit transaction word
(spec/30_encoding.md R91) and the signed 16-bit output sample (spec/10_state.md R40). -/

namespace Sys2Proof

/-- The value a register access moves: one byte (20_memory.md R62). -/
abbrev Byte := BitVec 8

/-- A transaction word (30_encoding.md R91). -/
abbrev Word := BitVec 32

/-- An element of the output stream: a signed 16-bit amplitude in two's complement (10_state.md R40). -/
abbrev Sample := BitVec 16

end Sys2Proof
end

