-- ==== Sys2Proof/Config.lean ====
section
/-! DEFINITION. The named parameters of the block (spec/00_scope.md R7). The spec takes them as arguments of the
model, so a `Config` is plain data that `State` carries and no operation changes: a statement over every state is a
statement over every value of every parameter (assumption log, entry 1). The tables of default values and every
look-up stand in Machine/Rom.lean. -/

namespace Sys2Proof

/-- `P_LENGTH_DISABLE_MODE`: what the flag `lengthDisabled` does (92_eei_decisions.md D9). -/
inductive LengthDisableMode where
  | ignored
  | haltDecrement
  | bypassGate
  deriving DecidableEq, Repr

/-- `P_SWEEP_OVERFLOW`: how an adding sweep fits into `timer` (43_frame_sequencer.md R214). -/
inductive SweepOverflow where
  | wrap11
  | saturate11
  | unbounded
  deriving DecidableEq, Repr

/-- `P_FRAME_WRAP`: what follows when `frameCounter` reaches 0 (43_frame_sequencer.md R215). -/
inductive FrameWrap where
  | reload
  | literal
  deriving DecidableEq, Repr

/-- `P_STATUS_TRI_BIT`: the triangle's bit in the status read, 2 or 3 (40_register_decoder.md R136). -/
inductive StatusTriBit where
  | bit2
  | bit3
  deriving DecidableEq, Repr

/-- The parameters of 00_scope.md R7, one field each. Where the spec puts a law on a parameter, the field's type
carries it: entry 31 of the length table is not stored, and the FIFO depth is stored less 1. -/
structure Config where
  /-- `P_DUTY_TABLE` (20_memory.md R67): row `dutyCycle`, column `dutyCount`. -/
  dutyTable : Vector (Vector (BitVec 1) 8) 4
  /-- `P_LENGTH_TABLE` (20_memory.md R68), entries 0 to 30; entry 31 is 30 by the table's one law. -/
  lengthTable : Vector Byte 31
  /-- `P_ENV_FOLD` (40_register_decoder.md R121): the control bytes whose fold differs from `v[3:0]`, each with its
  fold. Every function from a byte to four bits is some such list; the spec's default is the empty one. -/
  envFoldExceptions : List (Byte × BitVec 4)
  lengthDisableMode : LengthDisableMode
  sweepOverflow : SweepOverflow
  frameWrap : FrameWrap
  /-- `P_STEP_CLOCKS_TRIANGLE` (41_pulse_oscillator.md R166). -/
  stepClocksTriangle : Bool
  statusTriBit : StatusTriBit
  /-- `P_DISABLE_CLEARS_SAMPLE` (40_register_decoder.md R132). -/
  disableClearsSample : Bool
  /-- `P_FIFO_DEPTH` less 1, so that the depth is at least 1 (44_mixer_output.md R247). -/
  fifoDepthLess1 : Nat
  deriving DecidableEq, Repr

end Sys2Proof
end

