-- ==== Sys2Proof/Machine/Rom.lean ====
section
/-! DEFINITION. The lookup-table ROM (spec/20_memory.md R66 to R69), the default parameters (spec/00_scope.md R7) and
every look-up in a `Config`. -/

namespace Sys2Proof.Machine

/-- The default `P_DUTY_TABLE` (20_memory.md R67): general knowledge of the console, not of the source (D5). -/
def defaultDutyTable : Vector (Vector (BitVec 1) 8) 4 :=
  #v[#v[0, 1, 0, 0, 0, 0, 0, 0],
     #v[0, 1, 1, 0, 0, 0, 0, 0],
     #v[0, 1, 1, 1, 1, 0, 0, 0],
     #v[1, 0, 0, 1, 1, 1, 1, 1]]

/-- The default `P_LENGTH_TABLE` (20_memory.md R68), entries 0 to 30: general knowledge, not in the source (D6). -/
def defaultLengthTable : Vector Byte 31 :=
  #v[10, 254, 20, 2, 40, 4, 80, 6, 160, 8, 60, 10, 14, 12, 26, 14,
     12, 16, 24, 18, 48, 20, 96, 22, 192, 24, 72, 26, 16, 28, 32]

/-- `ROM.TRI` (20_memory.md R69). -/
def triTable : Vector (BitVec 4) 32 :=
  #v[8, 9, 10, 11, 12, 13, 14, 15, 15, 14, 13, 12, 11, 10, 9, 8,
     7, 6, 5, 4, 3, 2, 1, 0, 0, 1, 2, 3, 4, 5, 6, 7]

/-- The default of every parameter (00_scope.md R7). -/
def defaultConfig : Config where
  dutyTable := defaultDutyTable
  lengthTable := defaultLengthTable
  envFoldExceptions := []
  lengthDisableMode := .ignored
  sweepOverflow := .wrap11
  frameWrap := .reload
  stepClocksTriangle := true
  statusTriBit := .bit3
  disableClearsSample := false
  fifoDepthLess1 := 99

/-- `ROM.DUTY[d][k]` (20_memory.md R66). -/
def dutyBit (c : Config) (d : BitVec 2) (k : BitVec 3) : BitVec 1 :=
  have hd := d.isLt
  have hk := k.isLt
  c.dutyTable[d.toNat][k.toNat]

/-- `ROM.LENGTH[i]`, with entry 31 fixed at 30 (20_memory.md R68). -/
def lengthEntry (c : Config) (i : BitVec 5) : Byte :=
  if h : i.toNat < 31 then c.lengthTable[i.toNat] else 30

/-- `ROM.TRI[i]` (20_memory.md R69). -/
def triEntry (i : BitVec 5) : BitVec 4 :=
  have hi := i.isLt
  triTable[i.toNat]

/-- `P_ENV_FOLD(v)` (40_register_decoder.md R121): `v[3:0]` but for the listed exceptions. -/
def envFold (c : Config) (v : Byte) : BitVec 4 :=
  (c.envFoldExceptions.lookup v).getD (v.extractLsb' 0 4)

/-- `P_FIFO_DEPTH` (44_mixer_output.md R247). -/
def fifoDepth (c : Config) : Nat := c.fifoDepthLess1 + 1

end Sys2Proof.Machine
end

