-- ==== Sys2Proof/Syntax.lean ====
section
/-! DEFINITION. The transactions of the block as syntax: one constructor per row of spec/opcode_table.json, in the
table's order (spec/30_encoding.md R109), and the names under which a word is rejected (R93). -/

namespace Sys2Proof

/-- One transaction. `ahi` is address bits 15:8, which the decoder ignores (20_memory.md R60); it is kept so that
encoding drops no bit. `v` is the written byte. -/
inductive Instr where
  | wrSq1Ctrl (ahi v : Byte)
  | wrSq1Sweep (ahi v : Byte)
  | wrSq1Lo (ahi v : Byte)
  | wrSq1Hi (ahi v : Byte)
  | wrSq2Ctrl (ahi v : Byte)
  | wrSq2Sweep (ahi v : Byte)
  | wrSq2Lo (ahi v : Byte)
  | wrSq2Hi (ahi v : Byte)
  | wrTriCtrl (ahi v : Byte)
  | wrTriLo (ahi v : Byte)
  | wrTriHi (ahi v : Byte)
  | wrEnable (ahi v : Byte)
  | wrFrameMode (ahi v : Byte)
  | wrUnmapped (ahi off v : Byte)
  | rdStatus (ahi : Byte)
  | rdZero (ahi off : Byte)
  | stepc
  | stepf
  | push
  | pop
  deriving DecidableEq, Repr

/-- Why a word spells no transaction (30_encoding.md R93). -/
inductive Reject where
  /-- `kind` is not one of the six of R92. -/
  | unknownKind (kind : Byte)
  /-- A kind other than `WR` with a non-zero `data` field. -/
  | dataNotZero
  /-- `STEPC`, `STEPF`, `PUSH` or `POP` with a non-zero `ahi` or `off` field. -/
  | addressNotZero
  deriving DecidableEq, Repr

end Sys2Proof
end

