-- ==== Sys2Proof/Machine/State.lean ====
section
/-! DEFINITION. The state of the block and of the two agents that act on it, as plain data, with the state after reset
(spec/10_state.md R20 to R43, spec/70_reset_and_hazards.md R290). -/

namespace Sys2Proof.Machine

/-- A square-channel record (10_state.md R22 to R34). `timer` and `timerCount` are natural numbers because
`P_SWEEP_OVERFLOW = unbounded` lets a sweep take the timer past 11 bits (43_frame_sequencer.md R214); that they stay
within 2047 and 4095 otherwise is an invariant (Safety.lean; assumption log, entry 8). -/
structure Square where
  envelope : BitVec 4
  envelopeDisabled : Bool
  lengthDisabled : Bool
  dutyCycle : BitVec 2
  dutyCount : BitVec 3
  timer : Nat
  timerCount : Nat
  length : BitVec 8
  sweepEnabled : Bool
  sweepPeriod : BitVec 4
  shift : BitVec 3
  negative : Bool
  sample : BitVec 4
  deriving DecidableEq, Repr

/-- The triangle-channel record (10_state.md R35, R36). -/
structure Triangle where
  value : BitVec 7
  internalCountersDisabled : Bool
  timer : BitVec 11
  length : BitVec 8
  counter : BitVec 5
  sample : BitVec 4
  deriving DecidableEq, Repr

/-- `frameMode`, 4 or 5 (10_state.md R39). -/
inductive FrameMode where
  | four
  | five
  deriving DecidableEq, Repr

/-- The Apu aggregate (10_state.md R20). The FIFO is listed oldest sample first (R40); `frameCounter` is an unbounded
integer because `P_FRAME_WRAP = literal` lets it fall without end (R38, D29). -/
structure Apu where
  sq1 : Square
  sq2 : Square
  tri : Triangle
  square1Enabled : Bool
  square2Enabled : Bool
  triangleEnabled : Bool
  noiseEnabled : Bool
  dmcEnabled : Bool
  frameCounter : Int
  frameMode : FrameMode
  fifo : List Sample
  deriving DecidableEq, Repr

/-- The two agents (60_exceptions.md R276). -/
inductive Agent where
  | host
  | consumer
  deriving DecidableEq, Repr

/-- The host: the words of the calls it has yet to make, whether it is held inside a `pushSample`
(44_mixer_output.md R244), and the values its reads have returned, oldest first (10_state.md R42 (a)). -/
structure HostSide where
  calls : List Word
  held : Bool
  reads : List Byte
  deriving DecidableEq, Repr

/-- The consumer: the words of the calls it has yet to make, whether it is waiting in a pop (44_mixer_output.md R246),
and the samples its pops have returned, oldest first (10_state.md R42 (b)). -/
structure ConsumerSide where
  calls : List Word
  held : Bool
  received : List Sample
  deriving DecidableEq, Repr

/-- The whole machine: the parameters (never changed), the block, the two agents, and which of them moves at each
coming step: `turns` is the interleaving of 60_exceptions.md R276 as plain data (assumption log, entry 2). -/
structure State where
  cfg : Config
  apu : Apu
  host : HostSide
  consumer : ConsumerSide
  turns : List Agent
  deriving DecidableEq, Repr

/-- No operation of the block faults (60_exceptions.md R270, R273 (a)), so there is no fault to name: nothing raises
one, and that is as the spec says. -/
inductive Fault where
  deriving DecidableEq, Repr

/-- The ways a step can have no meaning. -/
inductive Refusal where
  /-- Raised by an arm of `exec` for a transaction that has no meaning yet; no arm does. Safe. -/
  | notModelled (mnemonic : String)
  /-- Raised by `step` on a word that spells no transaction (30_encoding.md R93, R107). Safe: no host driving the
  ports can produce such a word. -/
  | invalidWord (w : Word) (why : Reject)
  /-- Raised by `step` on a transaction presented by the agent that cannot make it: the consumer's only action is the
  pop, and the host's calls are the others (60_exceptions.md R276, R277). Safe: the spec gives such a run no move. -/
  | wrongAgent (agent : Agent) (i : Instr)
  deriving DecidableEq, Repr

/-! ## Reset (10_state.md R43; the values are the spec's own choice, D23 and D14) -/

def Square.reset : Square where
  envelope := 0
  envelopeDisabled := false
  lengthDisabled := false
  dutyCycle := 0
  dutyCount := 0
  timer := 0
  timerCount := 0
  length := 0
  sweepEnabled := false
  sweepPeriod := 0
  shift := 0
  negative := false
  sample := 0

def Triangle.reset : Triangle where
  value := 0
  internalCountersDisabled := false
  timer := 0
  length := 0
  counter := 0
  sample := 0

def Apu.reset : Apu where
  sq1 := Square.reset
  sq2 := Square.reset
  tri := Triangle.reset
  square1Enabled := false
  square2Enabled := false
  triangleEnabled := false
  noiseEnabled := false
  dmcEnabled := false
  frameCounter := 4
  frameMode := .four
  fifo := []

/-- The machine right after reset, for given parameters: no agent has made a call. -/
def State.resetWith (c : Config) : State where
  cfg := c
  apu := Apu.reset
  host := { calls := [], held := false, reads := [] }
  consumer := { calls := [], held := false, received := [] }
  turns := []

/-- The machine right after reset, with the default parameters (00_scope.md R7). -/
def State.reset : State := State.resetWith defaultConfig

end Sys2Proof.Machine
end

