-- ==== Sys2Proof/Machine/Flags.lean ====
section
/-! DEFINITION. The block has no condition codes, and no flag is set as a side effect of arithmetic (spec/10_state.md
R41). The one packed status word is computed from the length counters when it is read
(spec/40_register_decoder.md R136); it is all that stands here. -/

namespace Sys2Proof.Machine

/-- A channel is active when its length counter is not 0 (40_register_decoder.md R136, D16). -/
def active (length : BitVec 8) : Bool := 0 < length.toNat

/-- A Boolean as a byte, 1 for true (00_scope.md R9). -/
def bit (b : Bool) : Byte := if b then 1 else 0

/-- `P_STATUS_TRI_BIT` as a bit number. -/
def statusTriBitNumber : StatusTriBit → Nat
  | .bit2 => 2
  | .bit3 => 3

/-- The value a $4015 read returns (40_register_decoder.md R136). -/
def statusByte (c : Config) (a : Apu) : Byte :=
  bit (active a.sq1.length) ||| bit (active a.sq2.length) <<< 1 |||
    bit (active a.tri.length) <<< statusTriBitNumber c.statusTriBit

end Sys2Proof.Machine
end

