-- ==== Sys2Proof/Machine/Operands.lean ====
section
/-! DEFINITION. The operand fields of a written byte, one function per field of the register layouts of
spec/30_encoding.md R95 to R104, and the assembly of an 11-bit timer from its two byte registers. -/

namespace Sys2Proof.Machine

/-! ## Square control (R95) -/

def dutyField (v : Byte) : BitVec 2 := v.extractLsb' 6 2
def lengthDisableField (v : Byte) : Bool := v.getLsbD 5
def envelopeDisableField (v : Byte) : Bool := v.getLsbD 4

/-! ## Square sweep (R96) -/

def sweepEnableField (v : Byte) : Bool := v.getLsbD 7
/-- "stored value+1", 1 to 8. -/
def sweepPeriodField (v : Byte) : BitVec 4 := (v.extractLsb' 4 3).setWidth 4 + 1
def negativeField (v : Byte) : Bool := v.getLsbD 3
def shiftField (v : Byte) : BitVec 3 := v.extractLsb' 0 3

/-! ## Timer low and high (R97, R98, R100, R101) -/

/-- `timer[10:8] : v`. -/
def timerLow (t : BitVec 11) (v : Byte) : BitVec 11 := t.extractLsb' 8 3 ++ v
/-- `v[2:0] : timer[7:0]`. -/
def timerHigh (t : BitVec 11) (v : Byte) : BitVec 11 := v.extractLsb' 0 3 ++ t.extractLsb' 0 8
/-- Bits 7:3 of a high register: the length index of a square (R98), the raw length of the triangle (R101). -/
def lengthField (v : Byte) : BitVec 5 := v.extractLsb' 3 5

/-! ## Triangle control (R99) -/

def countersDisableField (v : Byte) : Bool := v.getLsbD 7
def linearValueField (v : Byte) : BitVec 7 := v.extractLsb' 0 7

/-! ## Channel enable (R102) and frame mode (R104) -/

def enableField (v : Byte) (n : Nat) : Bool := v.getLsbD n
def frameModeField (v : Byte) : FrameMode := if v.getLsbD 7 then .five else .four

/-- `frameMode` as the number it stands for. -/
def frameModeNumber : FrameMode → Int
  | .four => 4
  | .five => 5

end Sys2Proof.Machine
end

