-- ==== Sys2Proof/Machine/Ops.lean ====
section
/-! DEFINITION. The named operations every meaning is built from: replacing one component of the state, returning a
read's value, the FIFO's two ends and the two holds. The block raises no exception and has no return from one
(spec/60_exceptions.md R270), so there is no operation for either. -/

namespace Sys2Proof.Machine

/-- What a meaning and a step answer. -/
abbrev Result := Host.Outcome State Fault Refusal

/-! ## One component of the block -/

def State.withSq1 (s : State) (q : Square) : State := { s with apu := { s.apu with sq1 := q } }
def State.withSq2 (s : State) (q : Square) : State := { s with apu := { s.apu with sq2 := q } }
def State.withTri (s : State) (t : Triangle) : State := { s with apu := { s.apu with tri := t } }

/-- All five enable flags are written together (10_state.md R37). -/
def State.withEnables (s : State) (square1 square2 triangle noise dmc : Bool) : State :=
  { s with apu := { s.apu with
      square1Enabled := square1
      square2Enabled := square2
      triangleEnabled := triangle
      noiseEnabled := noise
      dmcEnabled := dmc } }

def State.withFrameMode (s : State) (m : FrameMode) : State :=
  { s with apu := { s.apu with frameMode := m } }
def State.withFrameCounter (s : State) (n : Int) : State :=
  { s with apu := { s.apu with frameCounter := n } }
def State.withFifo (s : State) (q : List Sample) : State :=
  { s with apu := { s.apu with fifo := q } }

/-! ## The host's and the consumer's side -/

/-- A register read returns `v` to the host (30_encoding.md R90, `rdata`). -/
def State.returnRead (s : State) (v : Byte) : State :=
  { s with host := { s.host with reads := s.host.reads ++ [v] } }

/-- A pop returns `x` to the consumer (30_encoding.md R90, `out_data`). -/
def State.deliver (s : State) (x : Sample) : State :=
  { s with consumer := { s.consumer with received := s.consumer.received ++ [x] } }

/-- Whether the host is held inside a `pushSample` (44_mixer_output.md R244). -/
def State.holdHost (s : State) (b : Bool) : State :=
  { s with host := { s.host with held := b } }

/-- Whether the consumer is waiting in a pop (44_mixer_output.md R246). -/
def State.holdConsumer (s : State) (b : Bool) : State :=
  { s with consumer := { s.consumer with held := b } }

/-! ## The FIFO (44_mixer_output.md R243, R244, R246) -/

/-- The FIFO holds `P_FIFO_DEPTH` samples: the condition on which a push blocks. -/
def State.fifoFull (s : State) : Bool := s.apu.fifo.length = fifoDepth s.cfg

/-- `Enqueue(x)`: at the tail. -/
def State.enqueue (s : State) (x : Sample) : State := s.withFifo (s.apu.fifo ++ [x])

/-! ## The agents -/

/-- The agent that makes a transaction (60_exceptions.md R276). -/
def agentOf : Instr → Agent
  | .pop => .consumer
  | .wrSq1Ctrl _ _ => .host
  | .wrSq1Sweep _ _ => .host
  | .wrSq1Lo _ _ => .host
  | .wrSq1Hi _ _ => .host
  | .wrSq2Ctrl _ _ => .host
  | .wrSq2Sweep _ _ => .host
  | .wrSq2Lo _ _ => .host
  | .wrSq2Hi _ _ => .host
  | .wrTriCtrl _ _ => .host
  | .wrTriLo _ _ => .host
  | .wrTriHi _ _ => .host
  | .wrEnable _ _ => .host
  | .wrFrameMode _ _ => .host
  | .wrUnmapped _ _ _ => .host
  | .rdStatus _ => .host
  | .rdZero _ _ => .host
  | .stepc => .host
  | .stepf => .host
  | .push => .host

/-- The words of the calls an agent has yet to make. -/
def State.callsOf (s : State) : Agent → List Word
  | .host => s.host.calls
  | .consumer => s.consumer.calls

/-- Whether an agent is held inside a call (60_exceptions.md R273). -/
def State.isHeld (s : State) : Agent → Bool
  | .host => s.host.held
  | .consumer => s.consumer.held

/-- The call an agent is held in: only a push holds the host, only a pop the consumer (60_exceptions.md R273 (b)). -/
def heldCall : Agent → Instr
  | .host => .push
  | .consumer => .pop

def State.withCalls (s : State) (a : Agent) (ws : List Word) : State :=
  match a with
  | .host => { s with host := { s.host with calls := ws } }
  | .consumer => { s with consumer := { s.consumer with calls := ws } }

def State.withHeld (s : State) (a : Agent) (b : Bool) : State :=
  match a with
  | .host => s.holdHost b
  | .consumer => s.holdConsumer b

def State.withTurns (s : State) (ts : List Agent) : State := { s with turns := ts }

end Sys2Proof.Machine
end

