-- ==== Sys2Proof/Machine/Triangle.lean ====
section
/-! DEFINITION. The triangle channel: the three writes of its registers (spec/40_register_decoder.md R127 to R129) and
its clock (spec/42_triangle_oscillator.md R190 to R192). -/

namespace Sys2Proof.Machine

/-! ## The three registers -/

/-- Triangle control (R127). -/
def triControl (v : Byte) (t : Triangle) : Triangle :=
  { t with
    internalCountersDisabled := countersDisableField v
    value := linearValueField v }

/-- Triangle timer low (R128). -/
def triLow (v : Byte) (t : Triangle) : Triangle := { t with timer := timerLow t.timer v }

/-- Triangle timer high and length; the length is the raw field, not table-indexed (R129). -/
def triHigh (v : Byte) (t : Triangle) : Triangle :=
  { t with
    timer := timerHigh t.timer v
    length := (lengthField v).setWidth 8 }

def execWrTriCtrl (v : Byte) (s : State) : Result := .next (s.withTri (triControl v s.apu.tri))
def execWrTriLo (v : Byte) (s : State) : Result := .next (s.withTri (triLow v s.apu.tri))
def execWrTriHi (v : Byte) (s : State) : Result := .next (s.withTri (triHigh v s.apu.tri))

/-! ## The clock -/

/-- The defensive re-fold of a table value above 15 (R191). -/
def refold (x : Nat) : Nat := if 15 < x then 31 - x else x

/-- `triClock()` (R190 to R192): the look-up uses `counter` before its advance. -/
def triClock (enabled : Bool) (t : Triangle) : Triangle :=
  if enabled && decide (0 < t.timer.toNat) then
    { t with
      sample := BitVec.ofNat 4 (refold (triEntry t.counter).toNat)
      counter := t.counter + 1 }
  else t

end Sys2Proof.Machine
end

