-- ==== Sys2Proof/Machine/Cycle.lean ====
section
/-! DEFINITION. `clock()` of a square channel and `stepCycle()` (spec/41_pulse_oscillator.md R160 to R166). -/

namespace Sys2Proof.Machine

/-- The gate (R161): the channel is silent. -/
def gated (c : Config) (q : Square) : Bool :=
  q.length == 0 && !(c.lengthDisableMode == .bypassGate && q.lengthDisabled)

/-- The envelope's force to 15 (R162). -/
def forceEnvelope (q : Square) : Square :=
  if q.envelopeDisabled then { q with envelope := 15 } else q

/-- Divider reload and duty step (R163). -/
def advanceDivider (q : Square) : Square :=
  if q.timerCount = 0 then { q with dutyCount := q.dutyCount + 1, timerCount := (q.timer + 1) * 2 } else q

/-- The sample (R164). -/
def computeSample (c : Config) (q : Square) : Square :=
  { q with sample := if dutyBit c q.dutyCycle q.dutyCount = 1 then q.envelope else 0 }

/-- Divider decrement (R165). -/
def decrementDivider (q : Square) : Square := { q with timerCount := q.timerCount - 1 }

/-- `clock()` of one square channel (R160). -/
def clock (c : Config) (q : Square) : Square :=
  if gated c q then { q with sample := 0 }
  else decrementDivider (computeSample c (advanceDivider (forceEnvelope q)))

/-- The pitch gate of `stepCycle` (R166): a square is clocked only while enabled with `timer >= 8`. -/
def clockIfPitched (c : Config) (enabled : Bool) (q : Square) : Square :=
  if enabled && decide (8 ≤ q.timer) then clock c q else q

/-- `stepCycle()` (R166). -/
def execStepc (s : State) : Result :=
  .next
    (((s.withSq1 (clockIfPitched s.cfg s.apu.square1Enabled s.apu.sq1)).withSq2
      (clockIfPitched s.cfg s.apu.square2Enabled s.apu.sq2)).withTri
      (if s.cfg.stepClocksTriangle then triClock s.apu.triangleEnabled s.apu.tri else s.apu.tri))

end Sys2Proof.Machine
end

