-- ==== Sys2Proof/Machine/Frame.lean ====
section
/-! DEFINITION. The frame sequencer: `stepFrame()` (spec/43_frame_sequencer.md R210 to R215). -/

namespace Sys2Proof.Machine

/-- `max(x - 1, 0)` (R212). -/
def decFloor {w : Nat} (x : BitVec w) : BitVec w := if x = 0 then 0 else x - 1

/-- The half-frame actions on one square (R212). -/
def halfFrame (c : Config) (q : Square) : Square :=
  { q with
    length := if c.lengthDisableMode == .haltDecrement && q.lengthDisabled then q.length else decFloor q.length
    sweepPeriod := decFloor q.sweepPeriod }

/-- How the sum of an adding sweep fits into the timer (R214, `P_SWEEP_OVERFLOW`). -/
def fitTimer (c : Config) (r : Nat) : Nat :=
  match c.sweepOverflow with
  | .wrap11 => r % 2048
  | .saturate11 => min r 2047
  | .unbounded => r

/-- `sweepTarget` (R214); the subtraction never goes below 0, since the shifted amount is at most the timer. -/
def sweepTarget (c : Config) (q : Square) : Nat :=
  fitTimer c (if q.negative then q.timer - q.timer >>> q.shift.toNat else q.timer + q.timer >>> q.shift.toNat)

/-- The sweep on one square (R213). -/
def sweep (c : Config) (q : Square) : Square :=
  if q.sweepEnabled && decide (0 < q.sweepPeriod.toNat) then { q with timer := sweepTarget c q } else q

/-- What a tick that sees `fc` does to one square: the half-frame actions first, then the sweep (R210 to R213). -/
def tickSquare (c : Config) (fc : Int) (q : Square) : Square :=
  let q' := if fc = 4 then halfFrame c q else q
  if fc < 5 then sweep c q' else q'

/-- The counter step (R215, `P_FRAME_WRAP`). -/
def nextFrameCounter (c : Config) (m : FrameMode) (fc : Int) : Int :=
  if c.frameWrap = .reload ∧ fc - 1 ≤ 0 then frameModeNumber m else fc - 1

/-- `stepFrame()` (R210). -/
def execStepf (s : State) : Result :=
  .next
    (((s.withSq1 (tickSquare s.cfg s.apu.frameCounter s.apu.sq1)).withSq2
      (tickSquare s.cfg s.apu.frameCounter s.apu.sq2)).withFrameCounter
      (nextFrameCounter s.cfg s.apu.frameMode s.apu.frameCounter))

end Sys2Proof.Machine
end

