-- ==== Sys2Proof/Machine/Global.lean ====
section
/-! DEFINITION. The global registers: channel enable, frame mode, the unmapped write and the two reads
(spec/40_register_decoder.md R131 to R137). -/

namespace Sys2Proof.Machine

/-! ## Channel enable -/

/-- The length part of a $4015 write for one square whose bit is `on` (R132). -/
def disableSquare (c : Config) (on : Bool) (q : Square) : Square :=
  if on then q
  else { q with length := 0, sample := if c.disableClearsSample then 0 else q.sample }

/-- The same for the triangle (R132). -/
def disableTriangle (c : Config) (on : Bool) (t : Triangle) : Triangle :=
  if on then t
  else { t with length := 0, sample := if c.disableClearsSample then 0 else t.sample }

/-- Channel enable: the flags (R131), then the lengths (R132), in one step. -/
def execWrEnable (v : Byte) (s : State) : Result :=
  .next
    ((((s.withEnables (enableField v 0) (enableField v 1) (enableField v 2) (enableField v 3) (enableField v 4)).withSq1
      (disableSquare s.cfg (enableField v 0) s.apu.sq1)).withSq2
      (disableSquare s.cfg (enableField v 1) s.apu.sq2)).withTri
      (disableTriangle s.cfg (enableField v 2) s.apu.tri))

/-! ## Frame mode -/

/-- Frame mode (R133): the sequence restarts; no tick runs. -/
def execWrFrameMode (v : Byte) (s : State) : Result :=
  .next ((s.withFrameMode (frameModeField v)).withFrameCounter (frameModeNumber (frameModeField v)))

/-! ## The no-op write and the reads -/

/-- Unmapped write (R134). -/
def execWrUnmapped (s : State) : Result := .next s

/-- Status read (R136). -/
def execRdStatus (s : State) : Result := .next (s.returnRead (statusByte s.cfg s.apu))

/-- Zero read (R137). -/
def execRdZero (s : State) : Result := .next (s.returnRead 0)

end Sys2Proof.Machine
end

