-- ==== Sys2Proof/Machine/Square.lean ====
section
/-! DEFINITION. The eight writes of the square channels' registers (spec/40_register_decoder.md R121 to R124). -/

namespace Sys2Proof.Machine

/-! ## The four registers of one channel -/

/-- Square control (R121). -/
def squareControl (c : Config) (v : Byte) (q : Square) : Square :=
  { q with
    dutyCycle := dutyField v
    lengthDisabled := lengthDisableField v
    envelopeDisabled := envelopeDisableField v
    envelope := envFold c v }

/-- Square sweep (R122). -/
def squareSweep (v : Byte) (q : Square) : Square :=
  { q with
    sweepEnabled := sweepEnableField v
    sweepPeriod := sweepPeriodField v
    negative := negativeField v
    shift := shiftField v }

/-- Square timer low (R123). -/
def squareLow (v : Byte) (q : Square) : Square :=
  { q with timer := (timerLow (BitVec.ofNat 11 q.timer) v).toNat }

/-- Square timer high and length (R124). -/
def squareHigh (c : Config) (v : Byte) (q : Square) : Square :=
  { q with
    timer := (timerHigh (BitVec.ofNat 11 q.timer) v).toNat
    length := lengthEntry c (lengthField v) }

/-! ## Meanings -/

def execWrSq1Ctrl (v : Byte) (s : State) : Result := .next (s.withSq1 (squareControl s.cfg v s.apu.sq1))
def execWrSq1Sweep (v : Byte) (s : State) : Result := .next (s.withSq1 (squareSweep v s.apu.sq1))
def execWrSq1Lo (v : Byte) (s : State) : Result := .next (s.withSq1 (squareLow v s.apu.sq1))
def execWrSq1Hi (v : Byte) (s : State) : Result := .next (s.withSq1 (squareHigh s.cfg v s.apu.sq1))
def execWrSq2Ctrl (v : Byte) (s : State) : Result := .next (s.withSq2 (squareControl s.cfg v s.apu.sq2))
def execWrSq2Sweep (v : Byte) (s : State) : Result := .next (s.withSq2 (squareSweep v s.apu.sq2))
def execWrSq2Lo (v : Byte) (s : State) : Result := .next (s.withSq2 (squareLow v s.apu.sq2))
def execWrSq2Hi (v : Byte) (s : State) : Result := .next (s.withSq2 (squareHigh s.cfg v s.apu.sq2))

end Sys2Proof.Machine
end

