-- ==== Sys2Proof/Machine/Stream.lean ====
section
/-! DEFINITION. The mixer and the output stream: `pushSample()` and the consumer's pop (spec/44_mixer_output.md R240 to
R246). `MIX` is the integer table the spec gives; the formula it tabulates, in binary64 arithmetic, stands below it. -/

namespace Sys2Proof.Machine

/-! ## The mixing function -/

/-- `MIX(0)` to `MIX(30)` (R242). -/
def mixTable : Vector Sample 31 :=
  #v[0, 571, 1128, 1673, 2204, 2723, 3231, 3726, 4211, 4685, 5149, 5602, 6046, 6480, 6906, 7322,
     7730, 8130, 8521, 8905, 9281, 9650, 10011, 10366, 10714, 11055, 11391, 11719, 12042, 12359, 12671]

/-- The output for two samples: only their sum matters (R241). -/
def mix (a b : BitVec 4) : Sample :=
  have ha := a.isLt
  have hb := b.isLt
  mixTable[a.toNat + b.toNat]

/-! ## The formula of R242 in IEEE 754 binary64

A positive binary64 number is kept as the fraction it stands for (numerator, denominator). Every value of the formula
lies between 0.5 and 50000, so neither overflow nor a subnormal number arises. -/

/-- `n / d` (both positive, of a quotient below 2^52) rounded to 53 bits, to nearest, ties to even. -/
def roundBinary64 (n d : Nat) : Nat × Nat :=
  let k₀ := 52 + d.log2 - n.log2
  let k := if n * 2 ^ k₀ / d < 2 ^ 52 then k₀ + 1 else k₀
  let q := n * 2 ^ k / d
  let r := n * 2 ^ k % d
  (if d < 2 * r ∨ (2 * r = d ∧ q % 2 = 1) then q + 1 else q, 2 ^ k)

def addBinary64 (x y : Nat × Nat) : Nat × Nat := roundBinary64 (x.1 * y.2 + y.1 * x.2) (x.2 * y.2)
def mulBinary64 (x y : Nat × Nat) : Nat × Nat := roundBinary64 (x.1 * y.1) (x.2 * y.2)
def divBinary64 (x y : Nat × Nat) : Nat × Nat := roundBinary64 (x.1 * y.2) (x.2 * y.1)

/-- `v` before truncation for a sum `s` of 1 or more, each operation rounded, in the order written (R242). -/
def mixFormula (s : Nat) : Nat × Nat :=
  mulBinary64
    (mulBinary64
      (divBinary64 (roundBinary64 9552 100)
        (addBinary64 (divBinary64 (roundBinary64 8128 1) (roundBinary64 s 1)) (roundBinary64 100 1)))
      (roundBinary64 98411 100000))
    (roundBinary64 50000 1)

/-- `trunc(v)` (00_scope.md R10). -/
def truncFormula (s : Nat) : Nat := (mixFormula s).1 / (mixFormula s).2

/-! ## Meanings -/

/-- `pushSample()` (R240): on a full FIFO the host is held (R244), and the held call is made again at the host's next
turn; otherwise the mixed sample is appended (R243) and the call is complete. -/
def execPush (s : State) : Result :=
  if s.fifoFull then .next (s.holdHost true)
  else .next ((s.enqueue (mix s.apu.sq1.sample s.apu.sq2.sample)).holdHost false)

/-- The consumer's pop (R246): on an empty FIFO the consumer waits, and its pop is made again at its next turn;
otherwise it gets the head sample. -/
def execPop (s : State) : Result :=
  match s.apu.fifo with
  | [] => .next (s.holdConsumer true)
  | x :: rest => .next (((s.withFifo rest).deliver x).holdConsumer false)

end Sys2Proof.Machine
end

