-- ==== Sys2Proof/Machine/Dispatch.lean ====
section
/-! DEFINITION. One arm per transaction (spec/opcode_table.json), each one direct call of its meaning. -/

namespace Sys2Proof.Machine

def exec (i : Instr) (s : State) : Host.Outcome State Fault Refusal :=
  match i with
  | .wrSq1Ctrl _ v => Sys2Proof.Machine.execWrSq1Ctrl v s
  | .wrSq1Sweep _ v => Sys2Proof.Machine.execWrSq1Sweep v s
  | .wrSq1Lo _ v => Sys2Proof.Machine.execWrSq1Lo v s
  | .wrSq1Hi _ v => Sys2Proof.Machine.execWrSq1Hi v s
  | .wrSq2Ctrl _ v => Sys2Proof.Machine.execWrSq2Ctrl v s
  | .wrSq2Sweep _ v => Sys2Proof.Machine.execWrSq2Sweep v s
  | .wrSq2Lo _ v => Sys2Proof.Machine.execWrSq2Lo v s
  | .wrSq2Hi _ v => Sys2Proof.Machine.execWrSq2Hi v s
  | .wrTriCtrl _ v => Sys2Proof.Machine.execWrTriCtrl v s
  | .wrTriLo _ v => Sys2Proof.Machine.execWrTriLo v s
  | .wrTriHi _ v => Sys2Proof.Machine.execWrTriHi v s
  | .wrEnable _ v => Sys2Proof.Machine.execWrEnable v s
  | .wrFrameMode _ v => Sys2Proof.Machine.execWrFrameMode v s
  | .wrUnmapped _ _ _ => Sys2Proof.Machine.execWrUnmapped s
  | .rdStatus _ => Sys2Proof.Machine.execRdStatus s
  | .rdZero _ _ => Sys2Proof.Machine.execRdZero s
  | .stepc => Sys2Proof.Machine.execStepc s
  | .stepf => Sys2Proof.Machine.execStepf s
  | .push => Sys2Proof.Machine.execPush s
  | .pop => Sys2Proof.Machine.execPop s

end Sys2Proof.Machine
end

