-- ==== Sys2Proof/WellFormed.lean ====
section
/-! DEFINITION. Which transactions the encoding admits: the two default rows of the opcode map (`WR.UNMAPPED` and
`RD.ZERO`) match only where no more specific row does (spec/30_encoding.md R106, R109). -/

namespace Sys2Proof

/-- The offsets of the register map a write reaches (20_memory.md R61). -/
def mappedOffsets : List Byte :=
  [0x00, 0x01, 0x02, 0x03, 0x04, 0x05, 0x06, 0x07, 0x08, 0x0A, 0x0B, 0x15, 0x17]

/-- The one offset that can be read (40_register_decoder.md R135). -/
def statusOffset : Byte := 0x15

/-- The operands are ones that the row's encoding admits. -/
def Instr.wellFormed : Instr → Bool
  | .wrUnmapped _ off _ => !mappedOffsets.contains off
  | .rdZero _ off => off != statusOffset
  | .wrSq1Ctrl _ _ => true
  | .wrSq1Sweep _ _ => true
  | .wrSq1Lo _ _ => true
  | .wrSq1Hi _ _ => true
  | .wrSq2Ctrl _ _ => true
  | .wrSq2Sweep _ _ => true
  | .wrSq2Lo _ _ => true
  | .wrSq2Hi _ _ => true
  | .wrTriCtrl _ _ => true
  | .wrTriLo _ _ => true
  | .wrTriHi _ _ => true
  | .wrEnable _ _ => true
  | .wrFrameMode _ _ => true
  | .rdStatus _ => true
  | .stepc => true
  | .stepf => true
  | .push => true
  | .pop => true

/-- `Instr.wellFormed` as a proposition. -/
abbrev Instr.WellFormed (i : Instr) : Prop := i.wellFormed = true

end Sys2Proof
end

