-- ==== Sys2Proof/Decode.lean ====
section
/-! DEFINITION. The decoder, total on every 32-bit word and rejecting by name (spec/30_encoding.md R91 to R93, R106),
and after it the encoder, written from the same tables (R91, R92, R109). -/

namespace Sys2Proof

/-! ## The fields of a transaction word (30_encoding.md R91) -/

def Word.kind (w : Word) : Byte := w.extractLsb' 24 8
def Word.ahi (w : Word) : Byte := w.extractLsb' 16 8
def Word.off (w : Word) : Byte := w.extractLsb' 8 8
def Word.data (w : Word) : Byte := w.extractLsb' 0 8

/-! ## Decoding -/

/-- The register a write reaches, by the offset alone, with the no-op default (40_register_decoder.md R120). -/
def decodeWrite (ahi off v : Byte) : Instr :=
  if off = 0x00 then .wrSq1Ctrl ahi v
  else if off = 0x01 then .wrSq1Sweep ahi v
  else if off = 0x02 then .wrSq1Lo ahi v
  else if off = 0x03 then .wrSq1Hi ahi v
  else if off = 0x04 then .wrSq2Ctrl ahi v
  else if off = 0x05 then .wrSq2Sweep ahi v
  else if off = 0x06 then .wrSq2Lo ahi v
  else if off = 0x07 then .wrSq2Hi ahi v
  else if off = 0x08 then .wrTriCtrl ahi v
  else if off = 0x0A then .wrTriLo ahi v
  else if off = 0x0B then .wrTriHi ahi v
  else if off = 0x15 then .wrEnable ahi v
  else if off = 0x17 then .wrFrameMode ahi v
  else .wrUnmapped ahi off v

/-- A read: the status at offset 0x15, zero elsewhere; `data` must be 0 (30_encoding.md R92, R93). -/
def decodeRead (ahi off v : Byte) : Except Reject Instr :=
  if v ≠ 0 then .error .dataNotZero
  else if off = statusOffset then .ok (.rdStatus ahi)
  else .ok (.rdZero ahi off)

/-- A transaction without operands: `ahi`, `off` and `data` must be 0 (30_encoding.md R92). -/
def decodeBare (i : Instr) (ahi off v : Byte) : Except Reject Instr :=
  if v ≠ 0 then .error .dataNotZero
  else if ahi ≠ 0 ∨ off ≠ 0 then .error .addressNotZero
  else .ok i

/-- Decoding by `kind` (30_encoding.md R92, R93), on the four fields of a word. -/
def decodeFields (kind ahi off v : Byte) : Except Reject Instr :=
  if kind = 0x01 then .ok (decodeWrite ahi off v)
  else if kind = 0x02 then decodeRead ahi off v
  else if kind = 0x10 then decodeBare .stepc ahi off v
  else if kind = 0x11 then decodeBare .stepf ahi off v
  else if kind = 0x12 then decodeBare .push ahi off v
  else if kind = 0x20 then decodeBare .pop ahi off v
  else .error (.unknownKind kind)

/-- The decoder (30_encoding.md R93). -/
def decode (w : Word) : Except Reject Instr :=
  decodeFields (Word.kind w) (Word.ahi w) (Word.off w) (Word.data w)

/-! ## Words as the opcode table numbers them -/

/-- The transaction word whose low `nbits` bits are those of `w`; every transaction is one word (30_encoding.md
R108), so the word is its own layout. -/
def tableWord (nbits w : Nat) : Word := BitVec.ofNat 32 (w % 2 ^ nbits)

/-- What the decoder reads from a word given as spec/opcode_table.json numbers it. -/
def decodeTableWord (nbits w : Nat) : Option Instr :=
  (decode (tableWord nbits w)).toOption

/-! ## Encoding -/

/-- A transaction word from its four fields (30_encoding.md R91). -/
def word (kind ahi off data : Byte) : Word := kind ++ ahi ++ off ++ data

/-- The encoder: `kind` and `off` from the opcode map (30_encoding.md R109), must-be-0 fields 0 (R92). -/
def encode : Instr → Word
  | .wrSq1Ctrl ahi v => word 0x01 ahi 0x00 v
  | .wrSq1Sweep ahi v => word 0x01 ahi 0x01 v
  | .wrSq1Lo ahi v => word 0x01 ahi 0x02 v
  | .wrSq1Hi ahi v => word 0x01 ahi 0x03 v
  | .wrSq2Ctrl ahi v => word 0x01 ahi 0x04 v
  | .wrSq2Sweep ahi v => word 0x01 ahi 0x05 v
  | .wrSq2Lo ahi v => word 0x01 ahi 0x06 v
  | .wrSq2Hi ahi v => word 0x01 ahi 0x07 v
  | .wrTriCtrl ahi v => word 0x01 ahi 0x08 v
  | .wrTriLo ahi v => word 0x01 ahi 0x0A v
  | .wrTriHi ahi v => word 0x01 ahi 0x0B v
  | .wrEnable ahi v => word 0x01 ahi 0x15 v
  | .wrFrameMode ahi v => word 0x01 ahi 0x17 v
  | .wrUnmapped ahi off v => word 0x01 ahi off v
  | .rdStatus ahi => word 0x02 ahi 0x15 0x00
  | .rdZero ahi off => word 0x02 ahi off 0x00
  | .stepc => word 0x10 0x00 0x00 0x00
  | .stepf => word 0x11 0x00 0x00 0x00
  | .push => word 0x12 0x00 0x00 0x00
  | .pop => word 0x20 0x00 0x00 0x00

end Sys2Proof
end

