-- ==== Sys2Proof/Machine/Fetch.lean ====
section
/-! DEFINITION. What an agent does on its turn: make again the call it is held in, present its next call, or nothing
(spec/60_exceptions.md R273, R276, R277). -/

namespace Sys2Proof.Machine

/-- What an agent's turn comes to. -/
inductive Fetched where
  /-- The agent makes no call: the block waits (70_reset_and_hazards.md R290). -/
  | idle
  /-- The transaction `i` runs, at the state with its word taken off the agent's calls. -/
  | run (i : Instr) (s : State)
  /-- The word has no step. -/
  | refuse (r : Refusal)
  deriving DecidableEq, Repr

/-- The next call of an agent that is not held, from its words. -/
def presentCall (a : Agent) (s : State) : Fetched :=
  match s.callsOf a with
  | [] => .idle
  | w :: ws =>
    match decode w with
    | .error why => .refuse (.invalidWord w why)
    | .ok i => if agentOf i = a then .run i (s.withCalls a ws) else .refuse (.wrongAgent a i)

/-- An agent held in a call makes no other call until that one completes (44_mixer_output.md R244, R246). -/
def fetch (a : Agent) (s : State) : Fetched :=
  if s.isHeld a then .run (heldCall a) s else presentCall a s

/-- The agent that can present a word: the consumer for kind 0x20, the host for every other (60_exceptions.md R276). -/
def presenterOf (w : Word) : Agent := if Word.kind w = 0x20 then .consumer else .host

/-- `s` in which the next step is a turn of the agent that presents `w`, not held, with `w` as its next call. -/
def State.placeCall (s : State) (w : Word) : State :=
  ((s.withCalls (presenterOf w) (w :: s.callsOf (presenterOf w))).withHeld (presenterOf w) false).withTurns
    (presenterOf w :: s.turns)

/-- `s` with a transcript of words (30_encoding.md R94) as the agents' coming calls, the order of the words being the
order of the agents' turns. -/
def State.load (s : State) (ws : List Word) : State :=
  { s with
    host := { s.host with calls := ws.filter (fun w => presenterOf w = .host) }
    consumer := { s.consumer with calls := ws.filter (fun w => presenterOf w = .consumer) }
    turns := ws.map presenterOf }

end Sys2Proof.Machine
end

