-- ==== Sys2Proof/Machine/Step.lean ====
section
/-! DEFINITION. One step: the turn of the agent that `turns` names next (spec/60_exceptions.md R276). With no turn left
the block waits for a call (spec/70_reset_and_hazards.md R290). -/

namespace Sys2Proof.Machine

/-- One atomic step (20_memory.md R71). -/
def step (s : State) : Host.Outcome State Fault Refusal :=
  match s.turns with
  | [] => .next s
  | a :: ts =>
    match fetch a (s.withTurns ts) with
    | .idle => .next (s.withTurns ts)
    | .run i s' => exec i s'
    | .refuse r => .refused r

/-- `s` with the word `w` of `nbits` bits, as spec/opcode_table.json numbers it, as the very next call. -/
def State.withFetchWord (s : State) (nbits w : Nat) : State := s.placeCall (tableWord nbits w)

end Sys2Proof.Machine
end

