-- ==== Sys2Proof/Safety.lean ====
section
/-! DEFINITION. The terms in which statements about the machine are made: one square channel by name, runs of several
transactions, the invariant every step keeps, and the two-run relations of the noninterference statements. -/

namespace Sys2Proof.Machine

/-! ## One square channel by name -/

/-- The two square channels (60_exceptions.md R275). -/
inductive Channel where
  | one
  | two
  deriving DecidableEq, Repr

def State.square (s : State) : Channel → Square
  | .one => s.apu.sq1
  | .two => s.apu.sq2

def State.squareEnabled (s : State) : Channel → Bool
  | .one => s.apu.square1Enabled
  | .two => s.apu.square2Enabled

/-- The channel's bit in a $4015 write (40_register_decoder.md R131). -/
def Channel.enableBit : Channel → Nat
  | .one => 0
  | .two => 1

/-- The transaction is a channel-enable write that clears the samples of channels whose bit is 0, and bit `n` of it is
0 (40_register_decoder.md R132). -/
def ClearsSample (c : Config) (i : Instr) (n : Nat) : Prop :=
  c.disableClearsSample = true ∧ ∃ ahi v, i = .wrEnable ahi v ∧ v.getLsbD n = false

/-- `stepCycle` clocks the triangle, whose own gate is open (41_pulse_oscillator.md R166, 42_triangle_oscillator.md
R190). -/
def State.TriangleClocked (s : State) : Prop :=
  s.cfg.stepClocksTriangle = true ∧ s.apu.triangleEnabled = true ∧ 0 < s.apu.tri.timer.toNat

/-- The gate of 41_pulse_oscillator.md R161 is closed: the channel is silent. -/
def Silent (c : Config) (q : Square) : Prop :=
  q.length = 0 ∧ ¬ (c.lengthDisableMode = .bypassGate ∧ q.lengthDisabled = true)

/-- `stepCycle` clocks the channel (41_pulse_oscillator.md R166). -/
def State.Pitched (s : State) (k : Channel) : Prop :=
  s.squareEnabled k = true ∧ 8 ≤ (s.square k).timer

/-! ## What one clock and one tick do to a square, as the rules state it -/

/-- `clock()` takes the square `q` to `q'` (41_pulse_oscillator.md R160 to R165): on the silent path only `sample`
changes; on the sounding path the envelope is forced before, and the duty step advanced before, the look-up. -/
structure SquareClocked (c : Config) (q q' : Square) : Prop where
  silent : Silent c q → q' = { q with sample := 0 }
  reload : ¬ Silent c q → q.timerCount = 0 →
    q' = { q with
      envelope := if q.envelopeDisabled then 15 else q.envelope
      dutyCount := BitVec.ofNat 3 ((q.dutyCount.toNat + 1) % 8)
      timerCount := (q.timer + 1) * 2 - 1
      sample :=
        if dutyBit c q.dutyCycle (BitVec.ofNat 3 ((q.dutyCount.toNat + 1) % 8)) = 1 then
          (if q.envelopeDisabled then 15 else q.envelope)
        else 0 }
  count : ¬ Silent c q → q.timerCount ≠ 0 →
    q' = { q with
      envelope := if q.envelopeDisabled then 15 else q.envelope
      timerCount := q.timerCount - 1
      sample :=
        if dutyBit c q.dutyCycle q.dutyCount = 1 then (if q.envelopeDisabled then 15 else q.envelope) else 0 }

/-- The timer `r` that a sweep leaves in a square (43_frame_sequencer.md R214). -/
structure SweepTarget (c : Config) (q : Square) (r : Nat) : Prop where
  subtract : q.negative = true → c.sweepOverflow = .unbounded → r = q.timer - q.timer / 2 ^ q.shift.toNat
  subtractWrap : q.negative = true → c.sweepOverflow = .wrap11 → r = (q.timer - q.timer / 2 ^ q.shift.toNat) % 2048
  subtractSaturate : q.negative = true → c.sweepOverflow = .saturate11 →
    r = min (q.timer - q.timer / 2 ^ q.shift.toNat) 2047
  add : q.negative = false → c.sweepOverflow = .unbounded → r = q.timer + q.timer / 2 ^ q.shift.toNat
  addWrap : q.negative = false → c.sweepOverflow = .wrap11 → r = (q.timer + q.timer / 2 ^ q.shift.toNat) % 2048
  addSaturate : q.negative = false → c.sweepOverflow = .saturate11 →
    r = min (q.timer + q.timer / 2 ^ q.shift.toNat) 2047

/-- A tick that sees the frame counter `fc` takes the square `q` to `q'` (43_frame_sequencer.md R211 to R214). -/
structure SquareTicked (c : Config) (fc : Int) (q q' : Square) : Prop where
  length : q'.length.toNat =
    if fc = 4 ∧ ¬ (c.lengthDisableMode = .haltDecrement ∧ q.lengthDisabled = true) then q.length.toNat - 1
    else q.length.toNat
  sweepPeriod : q'.sweepPeriod.toNat = if fc = 4 then q.sweepPeriod.toNat - 1 else q.sweepPeriod.toNat
  swept : fc < 5 → q.sweepEnabled = true → 0 < q'.sweepPeriod.toNat → SweepTarget c q q'.timer
  unswept : ¬ (fc < 5 ∧ q.sweepEnabled = true ∧ 0 < q'.sweepPeriod.toNat) → q'.timer = q.timer
  rest : q' = { q with length := q'.length, sweepPeriod := q'.sweepPeriod, timer := q'.timer }

/-! ## Runs -/

/-- Several transactions one after the other, each run by `exec`, up to the first that stops. -/
def execAll : List Instr → State → Result
  | [], s => .next s
  | i :: is, s =>
    match exec i s with
    | .next s' => execAll is s'
    | .fault r => .fault r
    | .refused r => .refused r

/-- What the next step fetches: the turn of the agent that `turns` names next. -/
def State.fetched (s : State) : Fetched :=
  match s.turns with
  | [] => .idle
  | a :: ts => fetch a (s.withTurns ts)

/-- The samples the next step puts into the stream: the mix of the two squares' samples where the fetched transaction is
a push with room (44_mixer_output.md R240 to R244), none at any other step. -/
def State.pushedNext (s : State) : List Sample :=
  match s.fetched with
  | .run .push u => if u.apu.fifo.length = fifoDepth u.cfg then [] else [mix u.apu.sq1.sample u.apu.sq2.sample]
  | _ => []

/-- The samples the next step takes out of the stream: the head where the fetched transaction is a pop and the stream is
not empty (44_mixer_output.md R246), none at any other step. -/
def State.poppedNext (s : State) : List Sample :=
  match s.fetched with
  | .run .pop u => u.apu.fifo.take 1
  | _ => []

/-- What each of the next `n` steps contributes, in the order of the steps, up to the first that stops. -/
def collect (f : State → List Sample) : Nat → State → List Sample
  | 0, _ => []
  | n + 1, s =>
    f s ++
      match step s with
      | .next t => collect f n t
      | .fault _ => []
      | .refused _ => []

/-! ## The invariant -/

/-- The ranges of a square's fields that its types do not give (10_state.md R27 to R29, R31). -/
structure SquareInv (c : Config) (q : Square) : Prop where
  timer : c.sweepOverflow ≠ .unbounded → q.timer ≤ 2047
  timerCount : c.sweepOverflow ≠ .unbounded → q.timerCount ≤ 4095
  length : ∃ i, q.length.toNat ≤ (lengthEntry c i).toNat
  sweepPeriod : q.sweepPeriod.toNat ≤ 8

/-- The ranges of the state that its types do not give: those of the squares, the triangle's length (10_state.md R36),
the frame counter (R38), the FIFO's length (R40) and its samples (44_mixer_output.md R242). -/
structure State.Inv (s : State) : Prop where
  sq1 : SquareInv s.cfg s.apu.sq1
  sq2 : SquareInv s.cfg s.apu.sq2
  triLength : s.apu.tri.length.toNat ≤ 31
  frameTop : s.apu.frameCounter ≤ frameModeNumber s.apu.frameMode
  frameBottom : s.cfg.frameWrap = .reload → 1 ≤ s.apu.frameCounter
  fifoLength : s.apu.fifo.length ≤ fifoDepth s.cfg
  fifoRange : ∀ x ∈ s.apu.fifo, x.toNat ≤ 12671

/-! ## Two-run relations -/

/-- Two squares alike but for an envelope that the next sounding clock overwrites (40_register_decoder.md R125). -/
def SameButMaskedEnvelope (p q : Square) : Prop :=
  q = { p with envelope := q.envelope } ∧ (p.envelopeDisabled = false → q.envelope = p.envelope)

/-- Two configurations alike but for what the fold makes of bytes with bit 4 set (40_register_decoder.md R125). -/
def SameButFold (c d : Config) : Prop :=
  d = { c with envFoldExceptions := d.envFoldExceptions } ∧
    ∀ v : Byte, v.getLsbD 4 = false → envFold d v = envFold c v

/-- Two machines that differ at most in the fold of bit 4 and in envelopes that no clock reads. -/
structure SameButEnvelopeFold (s t : State) : Prop where
  cfg : SameButFold s.cfg t.cfg
  sq1 : SameButMaskedEnvelope s.apu.sq1 t.apu.sq1
  sq2 : SameButMaskedEnvelope s.apu.sq2 t.apu.sq2
  rest : t = { s with cfg := t.cfg, apu := { s.apu with sq1 := t.apu.sq1, sq2 := t.apu.sq2 } }

/-- Two machines that differ at most in the triangle's fields other than its length, and in its enable flag. -/
def SameButTriangle (s t : State) : Prop :=
  t.apu.tri.length = s.apu.tri.length ∧
    t = { s with apu := { s.apu with tri := t.apu.tri, triangleEnabled := t.apu.triangleEnabled } }

/-- Two outcomes that agree: both stop alike, or both go on to related states. -/
def AgreeUpTo (R : State → State → Prop) : Result → Result → Prop
  | .next s, .next t => R s t
  | .refused r, .refused r' => r = r'
  | _, _ => False

end Sys2Proof.Machine
end

