-- ==== Sys2Proof/Certificates/Slice0/Obligations.lean ====
section
/-! DEFINITION. The statements for the provers, in the order of OBLIGATIONS.json. Each holds for every value of every
parameter of spec/00_scope.md R7 unless it says otherwise, because `State.cfg` ranges over all of them. -/

open Sys2Proof Sys2Proof.Machine

/-! ## Register writes (40_register_decoder.md) -/

/-- R121. Both control writes write four fields of their own channel and nothing else of the machine. That the write
leaves the divider and the duty step alone is the spec's own choice (D14); the fold is the parameter `P_ENV_FOLD`. -/
def Obligations.SquareControlWriteSetsFourFields : Prop :=
  ∀ (ahi v : Byte) (s : State),
    exec (.wrSq1Ctrl ahi v) s = .next { s with apu.sq1 := { s.apu.sq1 with
        dutyCycle := v.extractLsb' 6 2
        lengthDisabled := v.getLsbD 5
        envelopeDisabled := v.getLsbD 4
        envelope := envFold s.cfg v } } ∧
    exec (.wrSq2Ctrl ahi v) s = .next { s with apu.sq2 := { s.apu.sq2 with
        dutyCycle := v.extractLsb' 6 2
        lengthDisabled := v.getLsbD 5
        envelopeDisabled := v.getLsbD 4
        envelope := envFold s.cfg v } }

/-- R122. Both sweep writes write four fields of their own channel and nothing else; the period is the field plus 1, in
1 to 8. -/
def Obligations.SquareSweepWriteSetsFourFields : Prop :=
  ∀ (ahi v : Byte) (s : State), ∃ p : BitVec 4,
    p.toNat = (v.extractLsb' 4 3).toNat + 1 ∧
    exec (.wrSq1Sweep ahi v) s = .next { s with apu.sq1 := { s.apu.sq1 with
        sweepEnabled := v.getLsbD 7
        sweepPeriod := p
        negative := v.getLsbD 3
        shift := v.extractLsb' 0 3 } } ∧
    exec (.wrSq2Sweep ahi v) s = .next { s with apu.sq2 := { s.apu.sq2 with
        sweepEnabled := v.getLsbD 7
        sweepPeriod := p
        negative := v.getLsbD 3
        shift := v.extractLsb' 0 3 } }

/-- R123. Both timer low writes replace timer bits 7:0 of their own channel and change nothing else. That the divider is
not reloaded is the spec's own choice (D14). -/
def Obligations.SquareTimerLowWriteReplacesLowBits : Prop :=
  ∀ (ahi v : Byte) (s : State),
    exec (.wrSq1Lo ahi v) s = .next { s with apu.sq1 := { s.apu.sq1 with
        timer := s.apu.sq1.timer / 256 % 8 * 256 + v.toNat } } ∧
    exec (.wrSq2Lo ahi v) s = .next { s with apu.sq2 := { s.apu.sq2 with
        timer := s.apu.sq2.timer / 256 % 8 * 256 + v.toNat } }

/-- R124. Both timer high writes replace timer bits 10:8 and load the length from the table, whatever the enable flag
holds, and change nothing else; index 31 gives 30 under every table. That the load is not gated, and that the divider
and the duty step stay, are the spec's own choice (D24, D14). -/
def Obligations.SquareTimerHighWriteLoadsLength : Prop :=
  ∀ (ahi v : Byte) (s : State),
    exec (.wrSq1Hi ahi v) s = .next { s with apu.sq1 := { s.apu.sq1 with
        timer := v.toNat % 8 * 256 + s.apu.sq1.timer % 256
        length := lengthEntry s.cfg (v.extractLsb' 3 5) } } ∧
    exec (.wrSq2Hi ahi v) s = .next { s with apu.sq2 := { s.apu.sq2 with
        timer := v.toNat % 8 * 256 + s.apu.sq2.timer % 256
        length := lengthEntry s.cfg (v.extractLsb' 3 5) } } ∧
    (v.toNat / 8 = 31 → lengthEntry s.cfg (v.extractLsb' 3 5) = 30)

/-- R127, R128. The triangle's control and timer low writes set their fields and change nothing else. -/
def Obligations.TriangleControlAndLowWritesSetTheirFields : Prop :=
  ∀ (ahi v : Byte) (s : State),
    exec (.wrTriCtrl ahi v) s = .next { s with apu.tri := { s.apu.tri with
        internalCountersDisabled := v.getLsbD 7
        value := v.extractLsb' 0 7 } } ∧
    exec (.wrTriLo ahi v) s = .next { s with apu.tri := { s.apu.tri with
        timer := s.apu.tri.timer.extractLsb' 8 3 ++ v } }

/-- R129. The triangle's timer high write replaces timer bits 10:8 and loads the raw 5-bit length, and changes nothing
else. That it does so whatever the enable flag holds is the spec's own choice (D24). -/
def Obligations.TriangleHighWriteLoadsRawLength : Prop :=
  ∀ (ahi v : Byte) (s : State),
    exec (.wrTriHi ahi v) s = .next { s with apu.tri := { s.apu.tri with
        timer := v.extractLsb' 0 3 ++ s.apu.tri.timer.extractLsb' 0 8
        length := BitVec.ofNat 8 (v.toNat / 8) } }

/-- R131, R132. The channel-enable write sets five flags, zeroes the length of every channel whose bit is 0 whether or
not it was set before (the spec's own choice, D18), clears those samples exactly under `P_DISABLE_CLEARS_SAMPLE`, and
changes nothing else. -/
def Obligations.ChannelEnableWriteSetsFlagsAndZeroesLengths : Prop :=
  ∀ (ahi v : Byte) (s : State),
    exec (.wrEnable ahi v) s = .next { s with apu := { s.apu with
        square1Enabled := v.getLsbD 0
        square2Enabled := v.getLsbD 1
        triangleEnabled := v.getLsbD 2
        noiseEnabled := v.getLsbD 3
        dmcEnabled := v.getLsbD 4
        sq1 :=
          if v.getLsbD 0 then s.apu.sq1
          else { s.apu.sq1 with
            length := 0, sample := if s.cfg.disableClearsSample then 0 else s.apu.sq1.sample }
        sq2 :=
          if v.getLsbD 1 then s.apu.sq2
          else { s.apu.sq2 with
            length := 0, sample := if s.cfg.disableClearsSample then 0 else s.apu.sq2.sample }
        tri :=
          if v.getLsbD 2 then s.apu.tri
          else { s.apu.tri with
            length := 0, sample := if s.cfg.disableClearsSample then 0 else s.apu.tri.sample } } }

/-- R133. The frame-mode write sets the mode and restarts the counter, whatever it held, and changes nothing else. That it
runs no tick is the spec's own choice (D25). -/
def Obligations.FrameModeWriteRestartsSequence : Prop :=
  ∀ (ahi v : Byte) (s : State),
    exec (.wrFrameMode ahi v) s = .next { s with apu := { s.apu with
        frameMode := if v.getLsbD 7 then .five else .four
        frameCounter := if v.getLsbD 7 then 5 else 4 } }

/-- R134. The unmapped write changes nothing, and it is what a write to every offset the register map does not name
decodes to: 0x09, 0x0C to 0x14, 0x16 and 0x18 to 0xFF. -/
def Obligations.UnmappedWriteChangesNothing : Prop :=
  (∀ (ahi off v : Byte) (s : State), exec (.wrUnmapped ahi off v) s = .next s) ∧
  ∀ ahi off v : Byte,
    (off.toNat = 0x09 ∨ (0x0C ≤ off.toNat ∧ off.toNat ≤ 0x14) ∨ off.toNat = 0x16 ∨ 0x18 ≤ off.toNat) →
    decode (word 0x01 ahi off v) = .ok (.wrUnmapped ahi off v)

/-! ## Register reads -/

/-- R136. The status read returns one byte to the host and changes nothing else: bit 0, bit 1 and the triangle's bit
report the non-zero lengths, and every other bit is 0. That "active" means a non-zero length, and that a read changes no
state, are the spec's own choice (D16, D28). -/
def Obligations.StatusReadReportsNonZeroLengths : Prop :=
  ∀ (ahi : Byte) (s : State), ∃ b : Byte,
    exec (.rdStatus ahi) s = .next { s with host.reads := s.host.reads ++ [b] } ∧
    ∀ n : Nat, b.getLsbD n = true ↔
      (n = 0 ∧ 0 < s.apu.sq1.length.toNat) ∨
      (n = 1 ∧ 0 < s.apu.sq2.length.toNat) ∨
      (n = (match s.cfg.statusTriBit with | .bit2 => 2 | .bit3 => 3) ∧ 0 < s.apu.tri.length.toNat)

/-- R137. The zero read returns 0 to the host and changes nothing else, and it is what a read of every offset but 0x15
decodes to. That a read changes no state is the spec's own choice (R135, D28); `host.reads` is the model's record
(assumption log, entry 7). -/
def Obligations.ZeroReadReturnsZero : Prop :=
  (∀ (ahi off : Byte) (s : State),
    exec (.rdZero ahi off) s = .next { s with host.reads := s.host.reads ++ [0] }) ∧
  ∀ ahi off : Byte, off ≠ 0x15 → decode (word 0x02 ahi off 0x00) = .ok (.rdZero ahi off)

/-! ## The cycle step and the frame step -/

/-- R160, R166, with R190 to R192. `STEPC` clocks each square that is enabled with a timer of 8 or more, then the triangle
behind its own gate, and changes nothing else. -/
def Obligations.StepCycleClocksTheOscillators : Prop :=
  ∀ s : State, ∃ t, exec .stepc s = .next t ∧
    (∀ k, s.Pitched k → SquareClocked s.cfg (s.square k) (t.square k)) ∧
    (∀ k, ¬ s.Pitched k → t.square k = s.square k) ∧
    t.apu.tri =
      (if s.cfg.stepClocksTriangle = true ∧ s.apu.triangleEnabled = true ∧ 0 < s.apu.tri.timer.toNat then
        { s.apu.tri with
          sample := triEntry s.apu.tri.counter
          counter := BitVec.ofNat 5 ((s.apu.tri.counter.toNat + 1) % 32) }
      else s.apu.tri) ∧
    t = { s with apu := { s.apu with sq1 := t.apu.sq1, sq2 := t.apu.sq2, tri := t.apu.tri } }

/-- R210 to R215. `STEPF` runs the half-frame actions, the sweep and the counter step, and changes nothing else. -/
def Obligations.StepFrameRunsOneTick : Prop :=
  ∀ s : State, ∃ t, exec .stepf s = .next t ∧
    (∀ k, SquareTicked s.cfg s.apu.frameCounter (s.square k) (t.square k)) ∧
    t.apu.frameCounter =
      (if s.cfg.frameWrap = .reload ∧ s.apu.frameCounter - 1 ≤ 0 then
        (match s.apu.frameMode with | .four => 4 | .five => 5)
      else s.apu.frameCounter - 1) ∧
    t = { s with apu := { s.apu with
      sq1 := t.apu.sq1, sq2 := t.apu.sq2, frameCounter := t.apu.frameCounter } }

/-! ## The mixer and the stream -/

/-- R240, R241, R243. A push with room appends the mixed sample, completes the host's call (its hold, if it was held, ends:
the model's form of R244, assumption log, entry 3) and changes nothing else. -/
def Obligations.PushWithRoomAppendsMixedSample : Prop :=
  ∀ s : State, s.apu.fifo.length ≠ fifoDepth s.cfg →
    exec .push s = .next { s with
      apu.fifo := s.apu.fifo ++ [mix s.apu.sq1.sample s.apu.sq2.sample]
      host.held := false }

/-- R244. A push to a full FIFO holds the host and changes nothing else. That it is the host that is held is the spec's
own choice (D31); that a hold is a next state is the model's (assumption log, entry 3). -/
def Obligations.PushToFullFifoHoldsHost : Prop :=
  ∀ s : State, s.apu.fifo.length = fifoDepth s.cfg →
    exec .push s = .next { s with host.held := true }

/-- R246. A pop gives the consumer the head sample, completes its call and changes nothing else; a pop from an empty
FIFO holds the consumer (the spec's own choice, D27) and changes nothing else. -/
def Obligations.PopDeliversHeadOrWaits : Prop :=
  (∀ (s : State) (x : Sample) (rest : List Sample), s.apu.fifo = x :: rest →
    exec .pop s = .next { s with
      apu.fifo := rest
      consumer.received := s.consumer.received ++ [x]
      consumer.held := false }) ∧
  (∀ s : State, s.apu.fifo = [] → exec .pop s = .next { s with consumer.held := true })

/-- R242. `MIX` is the guarded formula evaluated in binary64 with each operation rounded, and equally the formula
evaluated exactly over the rationals (95.52 · 0.98411 · 50000 = 470010936 / 100). -/
def Obligations.MixIsTheTruncatedFormula : Prop :=
  mix 0 0 = 0 ∧
  ∀ a b : BitVec 4, 0 < a.toNat + b.toNat →
    (mix a b).toNat = truncFormula (a.toNat + b.toNat) ∧
    (mix a b).toNat = 470010936 * (a.toNat + b.toNat) / (812800 + 10000 * (a.toNat + b.toNat))

/-- R245. `MIX` depends on the sum only, is strictly increasing in it, and gives 0 and 12671 at its ends. -/
def Obligations.MixIsStrictlyIncreasingInTheSum : Prop :=
  mix 0 0 = 0 ∧ mix 15 15 = 12671 ∧
  ∀ a b a' b' : BitVec 4,
    (a.toNat + b.toNat < a'.toNat + b'.toNat → (mix a b).toNat < (mix a' b').toNat) ∧
    (a.toNat + b.toNat = a'.toNat + b'.toNat → mix a b = mix a' b')

/-! ## Encoding (30_encoding.md) -/

/-- Decoding the word of a well-formed transaction gives it back, with every operand at every value. -/
def Obligations.DecodeOfEncodeIsIdentity : Prop :=
  ∀ i : Instr, i.WellFormed → decode (encode i) = .ok i

/-- Every word that decodes is the word of the transaction it decodes to, which is well formed: no two words spell the
same transaction and no bit of a word is dropped. -/
def Obligations.EncodeOfDecodeIsIdentity : Prop :=
  ∀ (w : Word) (i : Instr), decode w = .ok i → encode i = w ∧ i.WellFormed

/-- R93. Exactly the words of the listed kinds with their must-be-0 fields 0 decode. -/
def Obligations.DecodableWordsAreTheListedKinds : Prop :=
  ∀ w : Word, (∃ i, decode w = .ok i) ↔
    Word.kind w = 0x01 ∨
    (Word.kind w = 0x02 ∧ Word.data w = 0) ∨
    ((Word.kind w = 0x10 ∨ Word.kind w = 0x11 ∨ Word.kind w = 0x12 ∨ Word.kind w = 0x20) ∧
      Word.ahi w = 0 ∧ Word.off w = 0 ∧ Word.data w = 0)

/-- Words written out from the encodings of 30_encoding.md and the vectors of 95_test_vectors.md, one or more a family,
decode to the transaction they stand for. That invalid words are refused is the spec's own choice (D33); the names of the
reasons are the model's (assumption log, entry 16). -/
def Obligations.WrittenOutWordsDecode : Prop :=
  decode 0x0140003F = .ok (.wrSq1Ctrl 0x40 0x3F) ∧
  decode 0x01400599 = .ok (.wrSq2Sweep 0x40 0x99) ∧
  decode 0x014003F8 = .ok (.wrSq1Hi 0x40 0xF8) ∧
  decode 0x01400A34 = .ok (.wrTriLo 0x40 0x34) ∧
  decode 0x014015FE = .ok (.wrEnable 0x40 0xFE) ∧
  decode 0x01401780 = .ok (.wrFrameMode 0x40 0x80) ∧
  decode 0x01FF0900 = .ok (.wrUnmapped 0xFF 0x09 0x00) ∧
  decode 0x02411500 = .ok (.rdStatus 0x41) ∧
  decode 0x02400000 = .ok (.rdZero 0x40 0x00) ∧
  decode 0x10000000 = .ok .stepc ∧
  decode 0x11000000 = .ok .stepf ∧
  decode 0x12000000 = .ok .push ∧
  decode 0x20000000 = .ok .pop ∧
  decode 0x03000000 = .error (.unknownKind 0x03) ∧
  decode 0x02401501 = .error .dataNotZero ∧
  decode 0x10010000 = .error .addressNotZero

/-- R60. Two register accesses whose words differ only in address bits 15:8 do the same to every state. -/
def Obligations.HighAddressBitsAreIgnored : Prop :=
  ∀ (w w' : Word) (i i' : Instr) (s : State),
    decode w = .ok i → decode w' = .ok i' →
    Word.kind w = Word.kind w' → Word.off w = Word.off w' → Word.data w = Word.data w' →
    exec i s = exec i' s

/-! ## The step -/

/-- A step runs the decoded transaction: when the agent whose turn it is makes a call whose word decodes to one of its
own transactions, the step is `exec` of it at the state with the turn and the word taken off. -/
def Obligations.StepRunsTheDecodedCall : Prop :=
  ∀ (s : State) (a : Agent) (ts : List Agent) (w : Word) (ws : List Word) (i : Instr),
    s.turns = a :: ts → s.isHeld a = false → s.callsOf a = w :: ws → decode w = .ok i → agentOf i = a →
    step s = exec i ((s.withTurns ts).withCalls a ws)

/-- A held agent makes again the call it is held in and takes no other from its calls; an agent with no call leaves the
state but for its turn; with no turn left the state stays. Which agent moves, and that a wait is a step that leaves the
state, are the model's choice (assumption log, entries 2, 3 and 4). -/
def Obligations.HeldAndIdleAgentsMakeNoNewCall : Prop :=
  (∀ (s : State) (ts : List Agent), s.turns = .host :: ts → s.host.held = true →
    step s = exec .push (s.withTurns ts)) ∧
  (∀ (s : State) (ts : List Agent), s.turns = .consumer :: ts → s.consumer.held = true →
    step s = exec .pop (s.withTurns ts)) ∧
  (∀ (s : State) (a : Agent) (ts : List Agent), s.turns = a :: ts → s.isHeld a = false → s.callsOf a = [] →
    step s = .next (s.withTurns ts)) ∧
  (∀ s : State, s.turns = [] → step s = .next s)

/-- A word placed where the next call is taken from is run by the very next step, by the agent it belongs to; a word
that spells no transaction is refused (R93, R107). -/
def Obligations.StepRunsThePlacedWord : Prop :=
  ∀ (s : State) (nbits w : Nat),
    (∀ i, decodeTableWord nbits w = some i →
      step (s.withFetchWord nbits w) = exec i (s.withHeld (agentOf i) false)) ∧
    (∀ why, decode (tableWord nbits w) = .error why →
      step (s.withFetchWord nbits w) = .refused (.invalidWord (tableWord nbits w) why))

/-- R270, R273. Every transaction has a next state in every state, whatever its operands: none faults and none is
refused. -/
def Obligations.EveryTransactionHasANextState : Prop :=
  ∀ (i : Instr) (s : State), ∃ t, exec i s = .next t

/-- R107, R273 (c). A step is refused only for a word that spells no transaction, or for one that the agent presenting
it cannot make (the second is the model's, assumption log, entry 5); in both cases the agent was not held. -/
def Obligations.StepIsRefusedOnlyForBadWords : Prop :=
  ∀ (s : State) (r : Refusal), step s = .refused r →
    ∃ a ts w ws, s.turns = a :: ts ∧ s.isHeld a = false ∧ s.callsOf a = w :: ws ∧
      ((∃ why, decode w = .error why ∧ r = .invalidWord w why) ∨
       (∃ i, decode w = .ok i ∧ agentOf i ≠ a ∧ r = .wrongAgent a i))

/-! ## Invariants and reset -/

/-- R43, R290. What reset leaves, for every choice of parameters; the values are the spec's own choice (D23, D14), and
those of the agents' sides the model's (assumption log, entry 6). -/
def Obligations.ResetLeavesZeroesAndFourStepMode : Prop :=
  ∀ c : Config,
    (∀ k, (State.resetWith c).square k =
      { envelope := 0, envelopeDisabled := false, lengthDisabled := false, dutyCycle := 0, dutyCount := 0, timer := 0,
        timerCount := 0, length := 0, sweepEnabled := false, sweepPeriod := 0, shift := 0, negative := false,
        sample := 0 }) ∧
    (State.resetWith c).apu.tri =
      { value := 0, internalCountersDisabled := false, timer := 0, length := 0, counter := 0, sample := 0 } ∧
    (∀ k, (State.resetWith c).squareEnabled k = false) ∧
    (State.resetWith c).apu.triangleEnabled = false ∧
    (State.resetWith c).apu.noiseEnabled = false ∧
    (State.resetWith c).apu.dmcEnabled = false ∧
    (State.resetWith c).apu.frameCounter = 4 ∧
    (State.resetWith c).apu.frameMode = .four ∧
    (State.resetWith c).apu.fifo = [] ∧
    (State.resetWith c).host.held = false ∧
    (State.resetWith c).consumer.held = false ∧
    State.reset = State.resetWith defaultConfig

/-- The lookup tables of 20_memory.md R67 to R69 and the defaults of 00_scope.md R7: the default duty and length tables
and the other defaults (the spec's own choice, D5 to D7, D9, D11, D12, D15, D17, D19, D20), entry 31 of every length
table, and the triangle table in its closed form. -/
def Obligations.TablesAndDefaultsHoldTheListedValues : Prop :=
  (∀ (c : Config) (i : BitVec 5), i.toNat = 31 → lengthEntry c i = 30) ∧
  (∀ i : BitVec 5, (triEntry i).toNat =
    if i.toNat ≤ 7 then 8 + i.toNat else if i.toNat ≤ 23 then 23 - i.toNat else i.toNat - 24) ∧
  (∀ k : BitVec 3,
    (dutyBit defaultConfig 0 k = 1 ↔ k.toNat = 1) ∧
    (dutyBit defaultConfig 1 k = 1 ↔ k.toNat = 1 ∨ k.toNat = 2) ∧
    (dutyBit defaultConfig 2 k = 1 ↔ 1 ≤ k.toNat ∧ k.toNat ≤ 4) ∧
    (dutyBit defaultConfig 3 k = 1 ↔ k.toNat = 0 ∨ 3 ≤ k.toNat)) ∧
  (List.range 32).map (fun n => (lengthEntry defaultConfig (BitVec.ofNat 5 n)).toNat) =
    [10, 254, 20, 2, 40, 4, 80, 6, 160, 8, 60, 10, 14, 12, 26, 14,
     12, 16, 24, 18, 48, 20, 96, 22, 192, 24, 72, 26, 16, 28, 32, 30] ∧
  (∀ v : Byte, envFold defaultConfig v = v.extractLsb' 0 4) ∧
  defaultConfig.lengthDisableMode = .ignored ∧
  defaultConfig.sweepOverflow = .wrap11 ∧
  defaultConfig.frameWrap = .reload ∧
  defaultConfig.stepClocksTriangle = true ∧
  defaultConfig.statusTriBit = .bit3 ∧
  defaultConfig.disableClearsSample = false ∧
  fifoDepth defaultConfig = 100 ∧
  ∀ c : Config, 1 ≤ fifoDepth c

/-- The invariant holds after reset, for every choice of parameters. The reset values are the spec's own choice (D23,
D14; assumption log, entry 6). -/
def Obligations.ResetMeetsTheInvariant : Prop :=
  ∀ c : Config, (State.resetWith c).Inv

/-- Every step keeps the ranges of the state: both timers within 0 to 2047 and both dividers within 0 to 4095 (unless
`P_SWEEP_OVERFLOW = unbounded`), sweep periods within 0 to 8, every length within its table, the frame counter within
its sequence (1 to the mode's number under `reload`), the FIFO within its depth and its samples within 0 to 12671. -/
def Obligations.EveryStepKeepsTheInvariant : Prop :=
  ∀ s t : State, s.Inv → step s = .next t → t.Inv

/-- No step changes a parameter or the lookup tables (R7, R66). -/
def Obligations.NoStepChangesTheParameters : Prop :=
  ∀ s t : State, step s = .next t → t.cfg = s.cfg

/-- R73, R248. Over any number of steps the samples received and those waiting grow at the end by exactly the mixed
samples of the run's pushes with room, in the order of the steps, at most one a step, and those received grow by exactly
the heads its pops took: what was pushed reaches the consumer in push order, none dropped, none duplicated, none
invented. -/
def Obligations.StreamKeepsOrderAndLosesNothing : Prop :=
  ∀ (n : Nat) (s t : State), core.run n s = .next t →
    t.consumer.received ++ t.apu.fifo = s.consumer.received ++ s.apu.fifo ++ collect State.pushedNext n s ∧
    t.consumer.received = s.consumer.received ++ collect State.poppedNext n s ∧
    (collect State.pushedNext n s).length ≤ n ∧ (collect State.poppedNext n s).length ≤ n

/-- R244, R273 (d), R307. A host held on a full FIFO, with no turn of the consumer to come, never moves: every further
run goes on, and leaves the block, the host and the consumer as they are. -/
def Obligations.HeldHostHangsWithoutTheConsumer : Prop :=
  ∀ (n : Nat) (s : State), s.host.held = true → s.apu.fifo.length = fifoDepth s.cfg → Agent.consumer ∉ s.turns →
    ∃ t, core.run n s = .next t ∧ t.apu = s.apu ∧ t.host = s.host ∧ t.consumer = s.consumer

/-- R244. What lifts the hold is a pop: the consumer takes the head sample, and at the host's next turn the held push
completes with the value of the samples as they stood. -/
def Obligations.PopLetsTheHeldPushComplete : Prop :=
  ∀ (s : State) (ts : List Agent) (x : Sample) (rest : List Sample),
    s.turns = .consumer :: .host :: ts → s.host.held = true →
    s.apu.fifo = x :: rest → s.apu.fifo.length = fifoDepth s.cfg →
    (s.consumer.held = true ∨ ∃ ws, s.consumer.calls = encode .pop :: ws) →
    ∃ t, core.run 2 s = .next t ∧
      t.host = { s.host with held := false } ∧
      t.consumer.held = false ∧
      t.consumer.received = s.consumer.received ++ [x] ∧
      t.apu = { s.apu with fifo := rest ++ [mix s.apu.sq1.sample s.apu.sq2.sample] }

/-- R240, R244, R309. While the host is held, no step changes anything of the block but the FIFO, no step makes a call
of the host's, and the host's reads stay as they are. -/
def Obligations.HeldHostFreezesTheBlock : Prop :=
  ∀ s t : State, s.host.held = true → step s = .next t →
    t.apu = { s.apu with fifo := t.apu.fifo } ∧ t.host.calls = s.host.calls ∧ t.host.reads = s.host.reads

/-- R274, R276. A turn of the consumer changes nothing of the block but the head of the FIFO, which it receives, and
nothing of the host. -/
def Obligations.ConsumerReachesOnlyTheStream : Prop :=
  ∀ (s t : State) (ts : List Agent), s.turns = .consumer :: ts → step s = .next t →
    t.cfg = s.cfg ∧ t.host = s.host ∧ t.apu = { s.apu with fifo := t.apu.fifo } ∧
    ((t.apu.fifo = s.apu.fifo ∧ t.consumer.received = s.consumer.received) ∨
     ∃ x, s.apu.fifo = x :: t.apu.fifo ∧ t.consumer.received = s.consumer.received ++ [x])

/-! ## What no transaction does -/

/-- R171, R291, R301. A square's phase (`dutyCount`, `timerCount`) moves only by a clock that sounds, its `sample` only
by a clock of it or by a channel-enable write that clears it (under `P_DISABLE_CLEARS_SAMPLE`, its bit 0), the triangle's
step index only by its clock, and its `sample` only by its clock or such a write: no other register write reaches any of
them. That no write reaches the phase is the spec's own choice (D14). -/
def Obligations.HiddenFieldsMoveOnlyByTheClock : Prop :=
  ∀ (i : Instr) (s t : State), exec i s = .next t →
    (∀ k, ¬ (i = .stepc ∧ s.Pitched k ∧ ¬ Silent s.cfg (s.square k)) →
      (t.square k).dutyCount = (s.square k).dutyCount ∧ (t.square k).timerCount = (s.square k).timerCount) ∧
    (∀ k, ¬ (i = .stepc ∧ s.Pitched k) → ¬ ClearsSample s.cfg i k.enableBit →
      (t.square k).sample = (s.square k).sample) ∧
    (¬ (i = .stepc ∧ s.TriangleClocked) → t.apu.tri.counter = s.apu.tri.counter) ∧
    (¬ (i = .stepc ∧ s.TriangleClocked) → ¬ ClearsSample s.cfg i 2 → t.apu.tri.sample = s.apu.tri.sample)

/-- R65. Writing a register twice with the same value leaves the state that writing it once leaves. -/
def Obligations.RegisterWritesAreIdempotent : Prop :=
  ∀ (i : Instr) (s t : State), Word.kind (encode i) = 0x01 → exec i s = .next t → exec i t = .next t

/-- R63. The low and the high byte of a timer can be written in either order. -/
def Obligations.TimerBytesCanBeWrittenInEitherOrder : Prop :=
  ∀ (ahi ahi' lo hi : Byte) (s : State),
    (∃ t, execAll [.wrSq1Lo ahi lo, .wrSq1Hi ahi' hi] s = .next t ∧
      execAll [.wrSq1Hi ahi' hi, .wrSq1Lo ahi lo] s = .next t ∧ t.apu.sq1.timer = hi.toNat % 8 * 256 + lo.toNat) ∧
    (∃ t, execAll [.wrSq2Lo ahi lo, .wrSq2Hi ahi' hi] s = .next t ∧
      execAll [.wrSq2Hi ahi' hi, .wrSq2Lo ahi lo] s = .next t ∧ t.apu.sq2.timer = hi.toNat % 8 * 256 + lo.toNat) ∧
    (∃ t, execAll [.wrTriLo ahi lo, .wrTriHi ahi' hi] s = .next t ∧
      execAll [.wrTriHi ahi' hi, .wrTriLo ahi lo] s = .next t ∧
      t.apu.tri.timer.toNat = hi.toNat % 8 * 256 + lo.toNat)

/-- R170. A square whose length is 0 keeps that length under every transaction but a write of its own high register, and
every clock of it gives a sample of 0 (the gate not bypassed). -/
def Obligations.SilentSquareStaysSilentUntilReloaded : Prop :=
  ∀ (i : Instr) (s t : State) (k : Channel), exec i s = .next t → (s.square k).length = 0 →
    (∀ ahi v, i ≠ (match k with | .one => .wrSq1Hi ahi v | .two => .wrSq2Hi ahi v)) →
    (t.square k).length = 0 ∧ (i = .stepc → s.Pitched k → Silent s.cfg (s.square k) → (t.square k).sample = 0)

/-- R172. A square's next state under `STEPC` and `STEPF` depends on nothing of the other channels, the FIFO or the
agents; two channels in the same state stay in the same state. -/
def Obligations.SquaresAreIndependent : Prop :=
  ∀ (s s' t t' : State) (k k' : Channel),
    s.cfg = s'.cfg → s.square k = s'.square k' → s.squareEnabled k = s'.squareEnabled k' →
    (exec .stepc s = .next t → exec .stepc s' = .next t' → t.square k = t'.square k') ∧
    (s.apu.frameCounter = s'.apu.frameCounter →
      exec .stepf s = .next t → exec .stepf s' = .next t' → t.square k = t'.square k')

/-- R125. The envelope fold cannot be observed: two machines alike but for what the fold makes of bytes with bit 4 set,
and for envelopes of channels in fixed-volume mode, stay so under every step, so that their samples, streams and reads
are equal. -/
def Obligations.EnvelopeFoldIsUnobservable : Prop :=
  ∀ s t : State, SameButEnvelopeFold s t → AgreeUpTo SameButEnvelopeFold (step s) (step t)

/-- R196, R197. The triangle, its length apart, has no effect on anything else: two machines that differ only in it stay
so under every step, so that their streams and reads are equal. -/
def Obligations.TriangleReachesNoOutput : Prop :=
  ∀ s t : State, SameButTriangle s t → AgreeUpTo SameButTriangle (step s) (step t)

/-! ## Laws over runs -/

/-- R167, R168. A square clocked on every `STEPC` with a constant timer `p`, sounding from the start of a period,
advances its duty step exactly once every `2(p+1)` clocks: after `n` whole periods and `r` clocks of the next, the duty
step has advanced `n + 1` times, the divider stands at `2(p+1) - r`, and the sample is the envelope exactly where the
duty pattern has a 1. That the envelope stays as written when
`envelopeDisabled` is false is the spec's own choice (D8; assumption log, entry 14). -/
def Obligations.DutyStepAdvancesOncePerPeriod : Prop :=
  ∀ (s : State) (k : Channel) (n r : Nat),
    s.Pitched k → ¬ Silent s.cfg (s.square k) → (s.square k).timerCount = 0 →
    1 ≤ r → r ≤ 2 * ((s.square k).timer + 1) →
    ∃ t, execAll (List.replicate (n * (2 * ((s.square k).timer + 1)) + r) .stepc) s = .next t ∧
      t.square k = { s.square k with
        envelope := if (s.square k).envelopeDisabled then 15 else (s.square k).envelope
        dutyCount := BitVec.ofNat 3 ((s.square k).dutyCount.toNat + n + 1)
        timerCount := 2 * ((s.square k).timer + 1) - r
        sample :=
          if dutyBit s.cfg (s.square k).dutyCycle (BitVec.ofNat 3 ((s.square k).dutyCount.toNat + n + 1)) = 1 then
            (if (s.square k).envelopeDisabled then 15 else (s.square k).envelope)
          else 0 }

/-- R193, R194. Clocked on every `STEPC`, the triangle runs through its table, one entry a clock, for every non-zero
timer, and repeats every 32 clocks. -/
def Obligations.TriangleRunsThroughItsTable : Prop :=
  ∀ (s : State) (n : Nat),
    s.cfg.stepClocksTriangle = true → s.apu.triangleEnabled = true → 0 < s.apu.tri.timer.toNat →
    ∃ t, execAll (List.replicate (n + 1) .stepc) s = .next t ∧
      t.apu.tri = { s.apu.tri with
        sample := triEntry (BitVec.ofNat 5 ((s.apu.tri.counter.toNat + n) % 32))
        counter := BitVec.ofNat 5 ((s.apu.tri.counter.toNat + n + 1) % 32) }

/-- R292. With every channel disabled, as after reset, no number of `STEPC` changes anything. -/
def Obligations.DisabledChannelsAreNotClocked : Prop :=
  ∀ (s : State) (n : Nat), (∀ k, s.squareEnabled k = false) → s.apu.triangleEnabled = false →
    execAll (List.replicate n .stepc) s = .next s

/-- R216. Under `reload` the counter runs 4, 3, 2, 1, 4, ... or 5, 4, 3, 2, 1, 5, ... from the start of a sequence. -/
def Obligations.FrameCounterRepeatsUnderReload : Prop :=
  ∀ (s : State) (n : Nat), s.cfg.frameWrap = .reload →
    s.apu.frameCounter = frameModeNumber s.apu.frameMode →
    ∃ t, execAll (List.replicate n .stepf) s = .next t ∧ t.apu.frameMode = s.apu.frameMode ∧
      t.apu.frameCounter = frameModeNumber s.apu.frameMode - (n : Int) % frameModeNumber s.apu.frameMode

/-- R217. Under `literal` the counter falls without end, and a 4- or 5-step sequence has one half-frame tick only, so
that a length falls by one and never again. -/
def Obligations.FrameCounterFallsUnderLiteral : Prop :=
  ∀ (s : State) (n : Nat), s.cfg.frameWrap = .literal →
    ∃ t, execAll (List.replicate n .stepf) s = .next t ∧
      t.apu.frameCounter = s.apu.frameCounter - n ∧
      (s.cfg.lengthDisableMode ≠ .haltDecrement → ∀ k, (t.square k).length.toNat =
        (s.square k).length.toNat -
          (if 4 ≤ s.apu.frameCounter ∧ s.apu.frameCounter - n < 4 then 1 else 0))

/-- R218. Under `reload`, from the start of a sequence, the `(n+1)`-th half-frame tick is tick `4n + 1` of the 4-step and
tick `5n + 2` of the 5-step sequence: one tick earlier the length is `max(L - n, 0)`, and from that very tick to the one
before the next half-frame tick it is `max(L - (n+1), 0)`. -/
def Obligations.LengthCountsHalfFrameTicks : Prop :=
  ∀ (s : State) (k : Channel) (n : Nat), s.cfg.frameWrap = .reload →
    ¬ (s.cfg.lengthDisableMode = .haltDecrement ∧ (s.square k).lengthDisabled = true) →
    s.apu.frameCounter = frameModeNumber s.apu.frameMode →
    (s.apu.frameMode = .four →
      (∃ t, execAll (List.replicate (4 * n) .stepf) s = .next t ∧
        (t.square k).length.toNat = (s.square k).length.toNat - n) ∧
      ∀ r, 1 ≤ r → r ≤ 4 → ∃ t, execAll (List.replicate (4 * n + r) .stepf) s = .next t ∧
        (t.square k).length.toNat = (s.square k).length.toNat - (n + 1)) ∧
    (s.apu.frameMode = .five →
      (∃ t, execAll (List.replicate (5 * n + 1) .stepf) s = .next t ∧
        (t.square k).length.toNat = (s.square k).length.toNat - n) ∧
      ∀ r, 2 ≤ r → r ≤ 6 → ∃ t, execAll (List.replicate (5 * n + r) .stepf) s = .next t ∧
        (t.square k).length.toNat = (s.square k).length.toNat - (n + 1))

/-- R219. Under `reload`, a sweep period of `p` at the start of a sequence lets the sweep act on exactly `4(p - 1)`
ticks: after `p` sequences, and at every tick from then on, the timer is that of `4(p - 1)` adjustments. -/
def Obligations.SweepActsFourTimesPerRemainingPeriod : Prop :=
  ∀ (s : State) (k : Channel) (n : Nat), s.cfg.frameWrap = .reload →
    s.apu.frameCounter = frameModeNumber s.apu.frameMode →
    (s.square k).sweepEnabled = true → 1 ≤ (s.square k).sweepPeriod.toNat →
    ∃ t, execAll (List.replicate
        ((frameModeNumber s.apu.frameMode).toNat * (s.square k).sweepPeriod.toNat + n) .stepf) s = .next t ∧
      (t.square k).timer =
        (fun x => sweepTarget s.cfg { s.square k with timer := x })^[4 * ((s.square k).sweepPeriod.toNat - 1)]
          (s.square k).timer ∧
      (t.square k).sweepPeriod = 0

/-- R220. On a tick where the sweep acts, the timer moves in the direction of the sweep, strictly exactly when the
shifted amount is not 0 (and, adding, the sum fits); with the sweep disabled no tick moves it. The timer is within 11
bits, as the invariant says of every state a run reaches. -/
def Obligations.SweepMovesTheTimerInItsDirection : Prop :=
  ∀ (s t : State) (k : Channel), s.Inv → exec .stepf s = .next t →
    ((s.square k).sweepEnabled = false → (t.square k).timer = (s.square k).timer) ∧
    (s.apu.frameCounter < 5 → (s.square k).sweepEnabled = true → 0 < (t.square k).sweepPeriod.toNat →
      ((s.square k).negative = true →
        (t.square k).timer ≤ (s.square k).timer ∧
        ((t.square k).timer < (s.square k).timer ↔ 0 < (s.square k).timer >>> (s.square k).shift.toNat)) ∧
      ((s.square k).negative = false → s.cfg.sweepOverflow = .unbounded →
        (s.square k).timer ≤ (t.square k).timer ∧
        ((s.square k).timer < (t.square k).timer ↔ 0 < (s.square k).timer >>> (s.square k).shift.toNat)) ∧
      ((s.square k).negative = false → s.cfg.sweepOverflow = .saturate11 →
        (s.square k).timer ≤ (t.square k).timer ∧
        ((s.square k).timer < (t.square k).timer ↔
          0 < (s.square k).timer >>> (s.square k).shift.toNat ∧ (s.square k).timer < 2047)) ∧
      ((s.square k).negative = false → s.cfg.sweepOverflow = .wrap11 →
        ((s.square k).timer < (t.square k).timer ↔
          0 < (s.square k).timer >>> (s.square k).shift.toNat ∧
          (s.square k).timer + (s.square k).timer >>> (s.square k).shift.toNat ≤ 2047)))
end

