-- ==== Sys2Proof/Laws/State.lean ====
section
/-! SUPPORT. What each state update does to each field: one lemma per field per update, true by rfl, so that no proof
unfolds a record update. -/

namespace Sys2Proof.Machine

/-! ## `withSq1` -/

section withSq1
variable (s : State) (q : Square)
@[simp] theorem State.withSq1_apu_sq1 : (s.withSq1 q).apu.sq1 = q := rfl
@[simp] theorem State.withSq1_apu_sq2 : (s.withSq1 q).apu.sq2 = s.apu.sq2 := rfl
@[simp] theorem State.withSq1_apu_tri : (s.withSq1 q).apu.tri = s.apu.tri := rfl
@[simp] theorem State.withSq1_apu_square1Enabled : (s.withSq1 q).apu.square1Enabled = s.apu.square1Enabled := rfl
@[simp] theorem State.withSq1_apu_square2Enabled : (s.withSq1 q).apu.square2Enabled = s.apu.square2Enabled := rfl
@[simp] theorem State.withSq1_apu_triangleEnabled : (s.withSq1 q).apu.triangleEnabled = s.apu.triangleEnabled := rfl
@[simp] theorem State.withSq1_apu_noiseEnabled : (s.withSq1 q).apu.noiseEnabled = s.apu.noiseEnabled := rfl
@[simp] theorem State.withSq1_apu_dmcEnabled : (s.withSq1 q).apu.dmcEnabled = s.apu.dmcEnabled := rfl
@[simp] theorem State.withSq1_apu_frameCounter : (s.withSq1 q).apu.frameCounter = s.apu.frameCounter := rfl
@[simp] theorem State.withSq1_apu_frameMode : (s.withSq1 q).apu.frameMode = s.apu.frameMode := rfl
@[simp] theorem State.withSq1_apu_fifo : (s.withSq1 q).apu.fifo = s.apu.fifo := rfl
@[simp] theorem State.withSq1_cfg : (s.withSq1 q).cfg = s.cfg := rfl
@[simp] theorem State.withSq1_host : (s.withSq1 q).host = s.host := rfl
@[simp] theorem State.withSq1_consumer : (s.withSq1 q).consumer = s.consumer := rfl
@[simp] theorem State.withSq1_turns : (s.withSq1 q).turns = s.turns := rfl
end withSq1

/-! ## `withSq2` -/

section withSq2
variable (s : State) (q : Square)
@[simp] theorem State.withSq2_apu_sq1 : (s.withSq2 q).apu.sq1 = s.apu.sq1 := rfl
@[simp] theorem State.withSq2_apu_sq2 : (s.withSq2 q).apu.sq2 = q := rfl
@[simp] theorem State.withSq2_apu_tri : (s.withSq2 q).apu.tri = s.apu.tri := rfl
@[simp] theorem State.withSq2_apu_square1Enabled : (s.withSq2 q).apu.square1Enabled = s.apu.square1Enabled := rfl
@[simp] theorem State.withSq2_apu_square2Enabled : (s.withSq2 q).apu.square2Enabled = s.apu.square2Enabled := rfl
@[simp] theorem State.withSq2_apu_triangleEnabled : (s.withSq2 q).apu.triangleEnabled = s.apu.triangleEnabled := rfl
@[simp] theorem State.withSq2_apu_noiseEnabled : (s.withSq2 q).apu.noiseEnabled = s.apu.noiseEnabled := rfl
@[simp] theorem State.withSq2_apu_dmcEnabled : (s.withSq2 q).apu.dmcEnabled = s.apu.dmcEnabled := rfl
@[simp] theorem State.withSq2_apu_frameCounter : (s.withSq2 q).apu.frameCounter = s.apu.frameCounter := rfl
@[simp] theorem State.withSq2_apu_frameMode : (s.withSq2 q).apu.frameMode = s.apu.frameMode := rfl
@[simp] theorem State.withSq2_apu_fifo : (s.withSq2 q).apu.fifo = s.apu.fifo := rfl
@[simp] theorem State.withSq2_cfg : (s.withSq2 q).cfg = s.cfg := rfl
@[simp] theorem State.withSq2_host : (s.withSq2 q).host = s.host := rfl
@[simp] theorem State.withSq2_consumer : (s.withSq2 q).consumer = s.consumer := rfl
@[simp] theorem State.withSq2_turns : (s.withSq2 q).turns = s.turns := rfl
end withSq2

/-! ## `withTri` -/

section withTri
variable (s : State) (r : Triangle)
@[simp] theorem State.withTri_apu_sq1 : (s.withTri r).apu.sq1 = s.apu.sq1 := rfl
@[simp] theorem State.withTri_apu_sq2 : (s.withTri r).apu.sq2 = s.apu.sq2 := rfl
@[simp] theorem State.withTri_apu_tri : (s.withTri r).apu.tri = r := rfl
@[simp] theorem State.withTri_apu_square1Enabled : (s.withTri r).apu.square1Enabled = s.apu.square1Enabled := rfl
@[simp] theorem State.withTri_apu_square2Enabled : (s.withTri r).apu.square2Enabled = s.apu.square2Enabled := rfl
@[simp] theorem State.withTri_apu_triangleEnabled : (s.withTri r).apu.triangleEnabled = s.apu.triangleEnabled := rfl
@[simp] theorem State.withTri_apu_noiseEnabled : (s.withTri r).apu.noiseEnabled = s.apu.noiseEnabled := rfl
@[simp] theorem State.withTri_apu_dmcEnabled : (s.withTri r).apu.dmcEnabled = s.apu.dmcEnabled := rfl
@[simp] theorem State.withTri_apu_frameCounter : (s.withTri r).apu.frameCounter = s.apu.frameCounter := rfl
@[simp] theorem State.withTri_apu_frameMode : (s.withTri r).apu.frameMode = s.apu.frameMode := rfl
@[simp] theorem State.withTri_apu_fifo : (s.withTri r).apu.fifo = s.apu.fifo := rfl
@[simp] theorem State.withTri_cfg : (s.withTri r).cfg = s.cfg := rfl
@[simp] theorem State.withTri_host : (s.withTri r).host = s.host := rfl
@[simp] theorem State.withTri_consumer : (s.withTri r).consumer = s.consumer := rfl
@[simp] theorem State.withTri_turns : (s.withTri r).turns = s.turns := rfl
end withTri

/-! ## `withEnables` -/

section withEnables
variable (s : State) (a b c d e : Bool)
@[simp] theorem State.withEnables_apu_sq1 : (s.withEnables a b c d e).apu.sq1 = s.apu.sq1 := rfl
@[simp] theorem State.withEnables_apu_sq2 : (s.withEnables a b c d e).apu.sq2 = s.apu.sq2 := rfl
@[simp] theorem State.withEnables_apu_tri : (s.withEnables a b c d e).apu.tri = s.apu.tri := rfl
@[simp] theorem State.withEnables_apu_square1Enabled : (s.withEnables a b c d e).apu.square1Enabled = a := rfl
@[simp] theorem State.withEnables_apu_square2Enabled : (s.withEnables a b c d e).apu.square2Enabled = b := rfl
@[simp] theorem State.withEnables_apu_triangleEnabled : (s.withEnables a b c d e).apu.triangleEnabled = c := rfl
@[simp] theorem State.withEnables_apu_noiseEnabled : (s.withEnables a b c d e).apu.noiseEnabled = d := rfl
@[simp] theorem State.withEnables_apu_dmcEnabled : (s.withEnables a b c d e).apu.dmcEnabled = e := rfl
@[simp] theorem State.withEnables_apu_frameCounter : (s.withEnables a b c d e).apu.frameCounter = s.apu.frameCounter := rfl
@[simp] theorem State.withEnables_apu_frameMode : (s.withEnables a b c d e).apu.frameMode = s.apu.frameMode := rfl
@[simp] theorem State.withEnables_apu_fifo : (s.withEnables a b c d e).apu.fifo = s.apu.fifo := rfl
@[simp] theorem State.withEnables_cfg : (s.withEnables a b c d e).cfg = s.cfg := rfl
@[simp] theorem State.withEnables_host : (s.withEnables a b c d e).host = s.host := rfl
@[simp] theorem State.withEnables_consumer : (s.withEnables a b c d e).consumer = s.consumer := rfl
@[simp] theorem State.withEnables_turns : (s.withEnables a b c d e).turns = s.turns := rfl
end withEnables

/-! ## `withFrameMode` -/

section withFrameMode
variable (s : State) (m : FrameMode)
@[simp] theorem State.withFrameMode_apu_sq1 : (s.withFrameMode m).apu.sq1 = s.apu.sq1 := rfl
@[simp] theorem State.withFrameMode_apu_sq2 : (s.withFrameMode m).apu.sq2 = s.apu.sq2 := rfl
@[simp] theorem State.withFrameMode_apu_tri : (s.withFrameMode m).apu.tri = s.apu.tri := rfl
@[simp] theorem State.withFrameMode_apu_square1Enabled : (s.withFrameMode m).apu.square1Enabled = s.apu.square1Enabled := rfl
@[simp] theorem State.withFrameMode_apu_square2Enabled : (s.withFrameMode m).apu.square2Enabled = s.apu.square2Enabled := rfl
@[simp] theorem State.withFrameMode_apu_triangleEnabled : (s.withFrameMode m).apu.triangleEnabled = s.apu.triangleEnabled := rfl
@[simp] theorem State.withFrameMode_apu_noiseEnabled : (s.withFrameMode m).apu.noiseEnabled = s.apu.noiseEnabled := rfl
@[simp] theorem State.withFrameMode_apu_dmcEnabled : (s.withFrameMode m).apu.dmcEnabled = s.apu.dmcEnabled := rfl
@[simp] theorem State.withFrameMode_apu_frameCounter : (s.withFrameMode m).apu.frameCounter = s.apu.frameCounter := rfl
@[simp] theorem State.withFrameMode_apu_frameMode : (s.withFrameMode m).apu.frameMode = m := rfl
@[simp] theorem State.withFrameMode_apu_fifo : (s.withFrameMode m).apu.fifo = s.apu.fifo := rfl
@[simp] theorem State.withFrameMode_cfg : (s.withFrameMode m).cfg = s.cfg := rfl
@[simp] theorem State.withFrameMode_host : (s.withFrameMode m).host = s.host := rfl
@[simp] theorem State.withFrameMode_consumer : (s.withFrameMode m).consumer = s.consumer := rfl
@[simp] theorem State.withFrameMode_turns : (s.withFrameMode m).turns = s.turns := rfl
end withFrameMode

/-! ## `withFrameCounter` -/

section withFrameCounter
variable (s : State) (n : Int)
@[simp] theorem State.withFrameCounter_apu_sq1 : (s.withFrameCounter n).apu.sq1 = s.apu.sq1 := rfl
@[simp] theorem State.withFrameCounter_apu_sq2 : (s.withFrameCounter n).apu.sq2 = s.apu.sq2 := rfl
@[simp] theorem State.withFrameCounter_apu_tri : (s.withFrameCounter n).apu.tri = s.apu.tri := rfl
@[simp] theorem State.withFrameCounter_apu_square1Enabled : (s.withFrameCounter n).apu.square1Enabled = s.apu.square1Enabled := rfl
@[simp] theorem State.withFrameCounter_apu_square2Enabled : (s.withFrameCounter n).apu.square2Enabled = s.apu.square2Enabled := rfl
@[simp] theorem State.withFrameCounter_apu_triangleEnabled : (s.withFrameCounter n).apu.triangleEnabled = s.apu.triangleEnabled := rfl
@[simp] theorem State.withFrameCounter_apu_noiseEnabled : (s.withFrameCounter n).apu.noiseEnabled = s.apu.noiseEnabled := rfl
@[simp] theorem State.withFrameCounter_apu_dmcEnabled : (s.withFrameCounter n).apu.dmcEnabled = s.apu.dmcEnabled := rfl
@[simp] theorem State.withFrameCounter_apu_frameCounter : (s.withFrameCounter n).apu.frameCounter = n := rfl
@[simp] theorem State.withFrameCounter_apu_frameMode : (s.withFrameCounter n).apu.frameMode = s.apu.frameMode := rfl
@[simp] theorem State.withFrameCounter_apu_fifo : (s.withFrameCounter n).apu.fifo = s.apu.fifo := rfl
@[simp] theorem State.withFrameCounter_cfg : (s.withFrameCounter n).cfg = s.cfg := rfl
@[simp] theorem State.withFrameCounter_host : (s.withFrameCounter n).host = s.host := rfl
@[simp] theorem State.withFrameCounter_consumer : (s.withFrameCounter n).consumer = s.consumer := rfl
@[simp] theorem State.withFrameCounter_turns : (s.withFrameCounter n).turns = s.turns := rfl
end withFrameCounter

/-! ## `withFifo` -/

section withFifo
variable (s : State) (l : List Sample)
@[simp] theorem State.withFifo_apu_sq1 : (s.withFifo l).apu.sq1 = s.apu.sq1 := rfl
@[simp] theorem State.withFifo_apu_sq2 : (s.withFifo l).apu.sq2 = s.apu.sq2 := rfl
@[simp] theorem State.withFifo_apu_tri : (s.withFifo l).apu.tri = s.apu.tri := rfl
@[simp] theorem State.withFifo_apu_square1Enabled : (s.withFifo l).apu.square1Enabled = s.apu.square1Enabled := rfl
@[simp] theorem State.withFifo_apu_square2Enabled : (s.withFifo l).apu.square2Enabled = s.apu.square2Enabled := rfl
@[simp] theorem State.withFifo_apu_triangleEnabled : (s.withFifo l).apu.triangleEnabled = s.apu.triangleEnabled := rfl
@[simp] theorem State.withFifo_apu_noiseEnabled : (s.withFifo l).apu.noiseEnabled = s.apu.noiseEnabled := rfl
@[simp] theorem State.withFifo_apu_dmcEnabled : (s.withFifo l).apu.dmcEnabled = s.apu.dmcEnabled := rfl
@[simp] theorem State.withFifo_apu_frameCounter : (s.withFifo l).apu.frameCounter = s.apu.frameCounter := rfl
@[simp] theorem State.withFifo_apu_frameMode : (s.withFifo l).apu.frameMode = s.apu.frameMode := rfl
@[simp] theorem State.withFifo_apu_fifo : (s.withFifo l).apu.fifo = l := rfl
@[simp] theorem State.withFifo_cfg : (s.withFifo l).cfg = s.cfg := rfl
@[simp] theorem State.withFifo_host : (s.withFifo l).host = s.host := rfl
@[simp] theorem State.withFifo_consumer : (s.withFifo l).consumer = s.consumer := rfl
@[simp] theorem State.withFifo_turns : (s.withFifo l).turns = s.turns := rfl
end withFifo

/-! ## The agents' sides -/

section sides
variable (s : State) (v : Byte) (x : Sample) (b : Bool) (ts : List Agent) (ws : List Word) (a : Agent)
@[simp] theorem State.returnRead_host_calls : (s.returnRead v).host.calls = s.host.calls := rfl
@[simp] theorem State.returnRead_host_held : (s.returnRead v).host.held = s.host.held := rfl
@[simp] theorem State.returnRead_host_reads : (s.returnRead v).host.reads = s.host.reads ++ [v] := rfl
@[simp] theorem State.returnRead_consumer : (s.returnRead v).consumer = s.consumer := rfl
@[simp] theorem State.returnRead_cfg : (s.returnRead v).cfg = s.cfg := rfl
@[simp] theorem State.returnRead_apu : (s.returnRead v).apu = s.apu := rfl
@[simp] theorem State.returnRead_turns : (s.returnRead v).turns = s.turns := rfl
@[simp] theorem State.deliver_consumer_calls : (s.deliver x).consumer.calls = s.consumer.calls := rfl
@[simp] theorem State.deliver_consumer_held : (s.deliver x).consumer.held = s.consumer.held := rfl
@[simp] theorem State.deliver_consumer_received : (s.deliver x).consumer.received = s.consumer.received ++ [x] := rfl
@[simp] theorem State.deliver_host : (s.deliver x).host = s.host := rfl
@[simp] theorem State.deliver_cfg : (s.deliver x).cfg = s.cfg := rfl
@[simp] theorem State.deliver_apu : (s.deliver x).apu = s.apu := rfl
@[simp] theorem State.deliver_turns : (s.deliver x).turns = s.turns := rfl
@[simp] theorem State.holdHost_host_calls : (s.holdHost b).host.calls = s.host.calls := rfl
@[simp] theorem State.holdHost_host_held : (s.holdHost b).host.held = b := rfl
@[simp] theorem State.holdHost_host_reads : (s.holdHost b).host.reads = s.host.reads := rfl
@[simp] theorem State.holdHost_consumer : (s.holdHost b).consumer = s.consumer := rfl
@[simp] theorem State.holdHost_cfg : (s.holdHost b).cfg = s.cfg := rfl
@[simp] theorem State.holdHost_apu : (s.holdHost b).apu = s.apu := rfl
@[simp] theorem State.holdHost_turns : (s.holdHost b).turns = s.turns := rfl
@[simp] theorem State.holdConsumer_consumer_calls : (s.holdConsumer b).consumer.calls = s.consumer.calls := rfl
@[simp] theorem State.holdConsumer_consumer_held : (s.holdConsumer b).consumer.held = b := rfl
@[simp] theorem State.holdConsumer_consumer_received : (s.holdConsumer b).consumer.received = s.consumer.received := rfl
@[simp] theorem State.holdConsumer_host : (s.holdConsumer b).host = s.host := rfl
@[simp] theorem State.holdConsumer_cfg : (s.holdConsumer b).cfg = s.cfg := rfl
@[simp] theorem State.holdConsumer_apu : (s.holdConsumer b).apu = s.apu := rfl
@[simp] theorem State.holdConsumer_turns : (s.holdConsumer b).turns = s.turns := rfl
@[simp] theorem State.withTurns_cfg : (s.withTurns ts).cfg = s.cfg := rfl
@[simp] theorem State.withTurns_apu : (s.withTurns ts).apu = s.apu := rfl
@[simp] theorem State.withTurns_host : (s.withTurns ts).host = s.host := rfl
@[simp] theorem State.withTurns_consumer : (s.withTurns ts).consumer = s.consumer := rfl
@[simp] theorem State.withTurns_turns : (s.withTurns ts).turns = ts := rfl
@[simp] theorem State.withCalls_cfg : (s.withCalls a ws).cfg = s.cfg := by cases a <;> rfl
@[simp] theorem State.withCalls_apu : (s.withCalls a ws).apu = s.apu := by cases a <;> rfl
@[simp] theorem State.withCalls_turns : (s.withCalls a ws).turns = s.turns := by cases a <;> rfl
@[simp] theorem State.withCalls_host_held : (s.withCalls a ws).host.held = s.host.held := by cases a <;> rfl
@[simp] theorem State.withCalls_host_reads : (s.withCalls a ws).host.reads = s.host.reads := by cases a <;> rfl
@[simp] theorem State.withCalls_consumer_held : (s.withCalls a ws).consumer.held = s.consumer.held := by cases a <;> rfl
@[simp] theorem State.withCalls_consumer_received : (s.withCalls a ws).consumer.received = s.consumer.received := by cases a <;> rfl
@[simp] theorem State.withCalls_host_calls : (s.withCalls .host ws).host.calls = ws := rfl
@[simp] theorem State.withCalls_consumer_calls : (s.withCalls .consumer ws).consumer.calls = ws := rfl
@[simp] theorem State.withHeld_cfg : (s.withHeld a b).cfg = s.cfg := by cases a <;> rfl
@[simp] theorem State.withHeld_apu : (s.withHeld a b).apu = s.apu := by cases a <;> rfl
@[simp] theorem State.withHeld_turns : (s.withHeld a b).turns = s.turns := by cases a <;> rfl
@[simp] theorem State.withHeld_host_calls : (s.withHeld a b).host.calls = s.host.calls := by cases a <;> rfl
@[simp] theorem State.withHeld_host_reads : (s.withHeld a b).host.reads = s.host.reads := by cases a <;> rfl
@[simp] theorem State.withHeld_consumer_calls : (s.withHeld a b).consumer.calls = s.consumer.calls := by cases a <;> rfl
@[simp] theorem State.withHeld_consumer_received : (s.withHeld a b).consumer.received = s.consumer.received := by cases a <;> rfl
@[simp] theorem State.withHeld_isHeld : (s.withHeld a b).isHeld a = b := by cases a <;> rfl
@[simp] theorem State.withCalls_callsOf : (s.withCalls a ws).callsOf a = ws := by cases a <;> rfl
@[simp] theorem State.withCalls_isHeld (c : Agent) : (s.withCalls a ws).isHeld c = s.isHeld c := by cases a <;> cases c <;> rfl
@[simp] theorem State.withTurns_isHeld : (s.withTurns ts).isHeld a = s.isHeld a := by cases a <;> rfl
@[simp] theorem State.withTurns_callsOf : (s.withTurns ts).callsOf a = s.callsOf a := by cases a <;> rfl
@[simp] theorem State.enqueue_fifo : (s.enqueue x).apu.fifo = s.apu.fifo ++ [x] := rfl
@[simp] theorem State.enqueue_cfg : (s.enqueue x).cfg = s.cfg := rfl
@[simp] theorem State.enqueue_host : (s.enqueue x).host = s.host := rfl
@[simp] theorem State.enqueue_consumer : (s.enqueue x).consumer = s.consumer := rfl
@[simp] theorem State.enqueue_turns : (s.enqueue x).turns = s.turns := rfl
@[simp] theorem State.enqueue_apu_sq1 : (s.enqueue x).apu.sq1 = s.apu.sq1 := rfl
@[simp] theorem State.enqueue_apu_sq2 : (s.enqueue x).apu.sq2 = s.apu.sq2 := rfl
@[simp] theorem State.enqueue_apu_tri : (s.enqueue x).apu.tri = s.apu.tri := rfl
end sides

end Sys2Proof.Machine
end

