-- ==== Sys2Proof/Laws/Ops.lean ====
section
/-! SUPPORT. One spec lemma per shared operation: what it can do, said once, for proofs to cite instead of unfolding it. -/

namespace Sys2Proof

/-! ## The transaction word -/

@[simp] theorem Word.kind_word (k a o d : Byte) : Word.kind (word k a o d) = k := by
  ext i hi
  simp [Word.kind, word, BitVec.getElem_extractLsb']
  grind

@[simp] theorem Word.ahi_word (k a o d : Byte) : Word.ahi (word k a o d) = a := by
  ext i hi
  simp [Word.ahi, word, BitVec.getElem_extractLsb']
  grind

@[simp] theorem Word.off_word (k a o d : Byte) : Word.off (word k a o d) = o := by
  ext i hi
  simp [Word.off, word, BitVec.getElem_extractLsb']
  grind

@[simp] theorem Word.data_word (k a o d : Byte) : Word.data (word k a o d) = d := by
  ext i hi
  simp [Word.data, word, BitVec.getElem_extractLsb']
  grind

/-- A word is its four fields. -/
theorem word_fields (w : Word) : word (Word.kind w) (Word.ahi w) (Word.off w) (Word.data w) = w := by
  ext i hi
  simp [Word.kind, Word.ahi, Word.off, Word.data, word]
  grind

@[simp] theorem decode_word (k a o d : Byte) : decode (word k a o d) = decodeFields k a o d := by
  simp [decode]

/-! ## Decoding by kind (30_encoding.md R92) -/

theorem decodeFields_wr (a o d : Byte) : decodeFields 0x01 a o d = .ok (decodeWrite a o d) := rfl

theorem decodeFields_rd (a o d : Byte) : decodeFields 0x02 a o d = decodeRead a o d := rfl

/-- Case analysis on the write decoder: a property of the decoded write follows from one premise a register. -/
theorem decodeWrite_elim {P : Instr → Prop} {a o d : Byte}
    (h00 : o = 0x00 → P (.wrSq1Ctrl a d))
    (h01 : o = 0x01 → P (.wrSq1Sweep a d))
    (h02 : o = 0x02 → P (.wrSq1Lo a d))
    (h03 : o = 0x03 → P (.wrSq1Hi a d))
    (h04 : o = 0x04 → P (.wrSq2Ctrl a d))
    (h05 : o = 0x05 → P (.wrSq2Sweep a d))
    (h06 : o = 0x06 → P (.wrSq2Lo a d))
    (h07 : o = 0x07 → P (.wrSq2Hi a d))
    (h08 : o = 0x08 → P (.wrTriCtrl a d))
    (h0A : o = 0x0A → P (.wrTriLo a d))
    (h0B : o = 0x0B → P (.wrTriHi a d))
    (h15 : o = 0x15 → P (.wrEnable a d))
    (h17 : o = 0x17 → P (.wrFrameMode a d))
    (hu : o ∉ mappedOffsets → P (.wrUnmapped a o d)) : P (decodeWrite a o d) := by
  unfold decodeWrite
  by_cases n00 : o = 0x00
  · rw [if_pos n00]; exact h00 n00
  rw [if_neg n00]
  by_cases n01 : o = 0x01
  · rw [if_pos n01]; exact h01 n01
  rw [if_neg n01]
  by_cases n02 : o = 0x02
  · rw [if_pos n02]; exact h02 n02
  rw [if_neg n02]
  by_cases n03 : o = 0x03
  · rw [if_pos n03]; exact h03 n03
  rw [if_neg n03]
  by_cases n04 : o = 0x04
  · rw [if_pos n04]; exact h04 n04
  rw [if_neg n04]
  by_cases n05 : o = 0x05
  · rw [if_pos n05]; exact h05 n05
  rw [if_neg n05]
  by_cases n06 : o = 0x06
  · rw [if_pos n06]; exact h06 n06
  rw [if_neg n06]
  by_cases n07 : o = 0x07
  · rw [if_pos n07]; exact h07 n07
  rw [if_neg n07]
  by_cases n08 : o = 0x08
  · rw [if_pos n08]; exact h08 n08
  rw [if_neg n08]
  by_cases n0A : o = 0x0A
  · rw [if_pos n0A]; exact h0A n0A
  rw [if_neg n0A]
  by_cases n0B : o = 0x0B
  · rw [if_pos n0B]; exact h0B n0B
  rw [if_neg n0B]
  by_cases n15 : o = 0x15
  · rw [if_pos n15]; exact h15 n15
  rw [if_neg n15]
  by_cases n17 : o = 0x17
  · rw [if_pos n17]; exact h17 n17
  rw [if_neg n17]
  apply hu
  simp only [mappedOffsets, List.mem_cons, List.not_mem_nil, or_false, not_or]
  and_intros <;> assumption

theorem decodeRead_ok_iff {a o d : Byte} {i : Instr} :
    decodeRead a o d = .ok i ↔ d = 0 ∧ i = if o = statusOffset then .rdStatus a else .rdZero a o := by
  unfold decodeRead
  grind

theorem decodeBare_ok_iff {i j : Instr} {a o d : Byte} :
    decodeBare i a o d = .ok j ↔ a = 0 ∧ o = 0 ∧ d = 0 ∧ j = i := by
  unfold decodeBare
  grind

/-- Every way four fields decode: a write, a read, or one of the four transactions without operands. -/
theorem decodeFields_ok_iff {k a o d : Byte} {i : Instr} :
    decodeFields k a o d = .ok i ↔
      (k = 0x01 ∧ i = decodeWrite a o d) ∨
      (k = 0x02 ∧ d = 0 ∧ i = if o = statusOffset then .rdStatus a else .rdZero a o) ∨
      (a = 0 ∧ o = 0 ∧ d = 0 ∧
        ((k = 0x10 ∧ i = .stepc) ∨ (k = 0x11 ∧ i = .stepf) ∨ (k = 0x12 ∧ i = .push) ∨ (k = 0x20 ∧ i = .pop))) := by
  unfold decodeFields
  split
  · next h => subst h; simp; exact eq_comm
  split
  · next h => subst h; simp [decodeRead_ok_iff]
  split
  · next h => subst h; simp [decodeBare_ok_iff]
  split
  · next h => subst h; simp [decodeBare_ok_iff]
  split
  · next h => subst h; simp [decodeBare_ok_iff]
  split
  · next h => subst h; simp [decodeBare_ok_iff]
  · grind

namespace Machine

/-! ## Register fields -/

@[simp] theorem decFloor_toNat {w : Nat} (x : BitVec w) : (decFloor x).toNat = x.toNat - 1 := by
  unfold decFloor
  split
  · next h => simp [h]
  · next h =>
    have hx : x.toNat ≠ 0 := fun h' => h (BitVec.eq_of_toNat_eq (by simpa using h'))
    have := x.isLt
    have h1 : (1 : BitVec w).toNat = 1 := by
      cases w with
      | zero => omega
      | succ n => simp
    rw [BitVec.toNat_sub_of_le (by rw [BitVec.le_def, h1]; omega), h1]

theorem timerLow_toNat (t : Nat) (v : Byte) :
    (timerLow (BitVec.ofNat 11 t) v).toNat = t / 256 % 8 * 256 + v.toNat := by
  have hv := v.isLt
  simp only [timerLow, BitVec.toNat_append, BitVec.extractLsb'_toNat, BitVec.toNat_ofNat, Nat.shiftRight_eq_div_pow]
  rw [← Nat.shiftLeft_add_eq_or_of_lt hv, Nat.shiftLeft_eq]
  omega

theorem timerHigh_toNat (t : Nat) (v : Byte) :
    (timerHigh (BitVec.ofNat 11 t) v).toNat = (v.extractLsb' 0 3).toNat * 256 + t % 256 := by
  have ht : t % 2048 % 256 < 2 ^ 8 := by omega
  simp only [timerHigh, BitVec.toNat_append, BitVec.extractLsb'_toNat, BitVec.toNat_ofNat, Nat.shiftRight_zero]
  rw [show t % 2 ^ 11 % 2 ^ 8 = t % 256 by omega]
  rw [← Nat.shiftLeft_add_eq_or_of_lt (show t % 256 < 2 ^ 8 by omega), Nat.shiftLeft_eq]

theorem lengthEntry_last (c : Config) : lengthEntry c 31 = 30 := rfl

/-! ## The square's clock (41_pulse_oscillator.md R160 to R165) -/

/-- The envelope a sounding clock uses (R162). -/
def sounding (q : Square) : BitVec 4 := if q.envelopeDisabled then 15 else q.envelope

theorem gated_iff (c : Config) (q : Square) : gated c q = true ↔ Silent c q := by
  simp only [gated, Silent, Bool.and_eq_true, Bool.not_eq_true', Bool.and_eq_false_iff, beq_iff_eq, beq_eq_false_iff_ne]
  grind

theorem clock_silent (c : Config) (q : Square) (h : Silent c q) : clock c q = { q with sample := 0 } := by
  simp [clock, (gated_iff c q).2 h]

theorem clock_reload (c : Config) (q : Square) (h : ¬ Silent c q) (h0 : q.timerCount = 0) :
    clock c q = { q with
      envelope := sounding q
      dutyCount := q.dutyCount + 1
      timerCount := (q.timer + 1) * 2 - 1
      sample := if dutyBit c q.dutyCycle (q.dutyCount + 1) = 1 then sounding q else 0 } := by
  have hg : ¬ gated c q = true := fun h' => h ((gated_iff c q).1 h')
  cases he : q.envelopeDisabled <;>
    simp [clock, hg, he, h0, forceEnvelope, advanceDivider, computeSample, decrementDivider, sounding]

theorem clock_count (c : Config) (q : Square) (h : ¬ Silent c q) (h0 : q.timerCount ≠ 0) :
    clock c q = { q with
      envelope := sounding q
      timerCount := q.timerCount - 1
      sample := if dutyBit c q.dutyCycle q.dutyCount = 1 then sounding q else 0 } := by
  have hg : ¬ gated c q = true := fun h' => h ((gated_iff c q).1 h')
  cases he : q.envelopeDisabled <;>
    simp [clock, hg, he, h0, forceEnvelope, advanceDivider, computeSample, decrementDivider, sounding]

/-! ## The triangle's clock (42_triangle_oscillator.md R190 to R192) -/

/-- The re-fold never changes a value (R191). -/
@[simp] theorem refold_triEntry (i : BitVec 5) : BitVec.ofNat 4 (refold (triEntry i).toNat) = triEntry i := by
  have := (triEntry i).isLt
  rw [refold, if_neg (by omega)]
  simp

theorem triClock_run (t : Triangle) (h : t.timer ≠ 0) :
    triClock true t = { t with sample := triEntry t.counter, counter := t.counter + 1 } := by
  have ht : 0 < t.timer.toNat := Nat.pos_of_ne_zero fun h' => h (BitVec.eq_of_toNat_eq (by simpa using h'))
  simp [triClock, ht]

theorem triClock_idle (e : Bool) (t : Triangle) (h : e = false ∨ t.timer = 0) : triClock e t = t := by
  rcases h with h | h <;> simp [triClock, h]

/-! ## The sweep and the frame counter (43_frame_sequencer.md R214, R215) -/

theorem fitTimer_le (c : Config) (r : Nat) (h : c.sweepOverflow ≠ .unbounded) : fitTimer c r ≤ 2047 := by
  unfold fitTimer
  cases hc : c.sweepOverflow with
  | wrap11 => simp only; omega
  | saturate11 => simp only; omega
  | unbounded => exact absurd hc h

theorem sweep_eq (c : Config) (q : Square) :
    sweep c q = { q with
      timer := if q.sweepEnabled = true ∧ 0 < q.sweepPeriod.toNat then sweepTarget c q else q.timer } := by
  unfold sweep
  by_cases h : q.sweepEnabled = true ∧ 0 < q.sweepPeriod.toNat
  · rw [if_pos (by simpa using h), if_pos h]
  · rw [if_neg (by simpa using h), if_neg h]

/-- The sweep reads nothing that the half-frame actions write but the countdown. -/
theorem sweepTarget_halfFrame (c : Config) (q : Square) : sweepTarget c (halfFrame c q) = sweepTarget c q := rfl

/-- The length a tick that sees `fc` leaves (R212). -/
def tickLength (c : Config) (fc : Int) (q : Square) : BitVec 8 :=
  if fc = 4 ∧ ¬ (c.lengthDisableMode = .haltDecrement ∧ q.lengthDisabled = true) then decFloor q.length else q.length

/-- The sweep countdown a tick that sees `fc` leaves (R212). -/
def tickPeriod (fc : Int) (q : Square) : BitVec 4 := if fc = 4 then decFloor q.sweepPeriod else q.sweepPeriod

/-- A tick changes a square's length, sweep countdown and timer, and nothing else (R210 to R214). -/
theorem tickSquare_eq (c : Config) (fc : Int) (q : Square) :
    tickSquare c fc q = { q with
      length := tickLength c fc q
      sweepPeriod := tickPeriod fc q
      timer :=
        if fc < 5 ∧ q.sweepEnabled = true ∧ 0 < (tickPeriod fc q).toNat then sweepTarget c q else q.timer } := by
  unfold tickSquare
  by_cases h4 : fc = 4
  · subst h4
    simp only [if_true, show (4 : Int) < 5 by decide, sweep_eq, sweepTarget_halfFrame]
    simp only [halfFrame, tickLength, tickPeriod, if_true, true_and]
    congr 1
    cases c.lengthDisableMode <;> cases q.lengthDisabled <;> simp
  · by_cases h5 : fc < 5 <;> simp [h4, h5, sweep_eq, tickLength, tickPeriod]

theorem nextFrameCounter_reload (c : Config) (m : FrameMode) (fc : Int) (h : c.frameWrap = .reload) :
    nextFrameCounter c m fc = if fc ≤ 1 then frameModeNumber m else fc - 1 := by
  unfold nextFrameCounter
  simp only [h, true_and]
  congr 1
  exact propext ⟨fun h => by omega, fun h => by omega⟩

theorem nextFrameCounter_literal (c : Config) (m : FrameMode) (fc : Int) (h : c.frameWrap = .literal) :
    nextFrameCounter c m fc = fc - 1 := by
  simp [nextFrameCounter, h]

/-! ## The mixer (44_mixer_output.md R242) -/

theorem mixTable_le_fin : ∀ j : Fin 31, (mixTable[j.val]).toNat ≤ 12671 := by decide

theorem mixTable_le (i : Nat) (h : i < 31) : (mixTable[i]).toNat ≤ 12671 := mixTable_le_fin ⟨i, h⟩

theorem mix_le (a b : BitVec 4) : (mix a b).toNat ≤ 12671 := mixTable_le _ _

theorem mix_comm (a b : BitVec 4) : mix a b = mix b a := by
  simp only [mix, Nat.add_comm]

/-! ## The two ends of the stream (44_mixer_output.md R240 to R246) -/

theorem fifoFull_iff (s : State) : s.fifoFull = true ↔ s.apu.fifo.length = fifoDepth s.cfg := by
  simp [State.fifoFull]

theorem execPush_full (s : State) (h : s.apu.fifo.length = fifoDepth s.cfg) :
    execPush s = .next (s.holdHost true) := by
  simp [execPush, (fifoFull_iff s).2 h]

theorem execPush_room (s : State) (h : s.apu.fifo.length ≠ fifoDepth s.cfg) :
    execPush s = .next ((s.enqueue (mix s.apu.sq1.sample s.apu.sq2.sample)).holdHost false) := by
  have : ¬ s.fifoFull = true := fun h' => h ((fifoFull_iff s).1 h')
  simp [execPush, this]

theorem execPop_empty (s : State) (h : s.apu.fifo = []) : execPop s = .next (s.holdConsumer true) := by
  simp [execPop, h]

theorem execPop_cons (s : State) (x : Sample) (rest : List Sample) (h : s.apu.fifo = x :: rest) :
    execPop s = .next (((s.withFifo rest).deliver x).holdConsumer false) := by
  simp [execPop, h]

/-! ## Runs -/

@[simp] theorem execAll_nil (s : State) : execAll [] s = .next s := rfl

theorem execAll_cons_next {i : Instr} {is : List Instr} {s t : State} (h : exec i s = .next t) :
    execAll (i :: is) s = execAll is t := by
  simp [execAll, h]

theorem execAll_append {is js : List Instr} {s t : State} (h : execAll is s = .next t) :
    execAll (is ++ js) s = execAll js t := by
  induction is generalizing s with
  | nil => cases h; rfl
  | cons i is ih =>
    cases hi : exec i s with
    | next u => rw [execAll_cons_next hi] at h; rw [List.cons_append, execAll_cons_next hi, ih h]
    | fault r => simp [execAll, hi] at h
    | refused r => simp [execAll, hi] at h

/-- A run of no step stays. -/
theorem run_zero (s : State) : core.run 0 s = .next s := rfl

/-- A run goes on from the state its first step answers. -/
theorem run_succ_next {s t : State} (n : Nat) (h : step s = .next t) : core.run (n + 1) s = core.run n t := by
  have h' : core.step s = .next t := h
  simp only [Host.Core.run, h']

/-- A run that answers a next state took a first step that did. -/
theorem run_succ_inv {s t : State} {n : Nat} (h : core.run (n + 1) s = .next t) :
    ∃ u, step s = .next u ∧ core.run n u = .next t := by
  cases hs : step s with
  | next u => exact ⟨u, rfl, by rw [← h, run_succ_next n hs]⟩
  | fault r => cases r
  | refused r =>
    have h' : core.step s = .refused r := hs
    simp [Host.Core.run, h'] at h

/-! ## What a step can do -/

/-- What the next call of an agent can be: nothing, a transaction of its own with its word taken off, or a stop. -/
theorem presentCall_run {a : Agent} {s s' : State} {i : Instr} (h : presentCall a s = .run i s') :
    ∃ w ws, s.callsOf a = w :: ws ∧ decode w = .ok i ∧ agentOf i = a ∧ s' = s.withCalls a ws := by
  unfold presentCall at h
  split at h
  · cases h
  · next w ws hc =>
    split at h
    · cases h
    · next j hj =>
      split at h
      · next ha => cases h; exact ⟨w, ws, hc, hj, ha, rfl⟩
      · cases h

/-- A step runs the transaction it fetches. -/
theorem step_fetched_run {s u : State} {i : Instr} (h : s.fetched = .run i u) : step s = exec i u := by
  unfold State.fetched at h
  unfold step
  cases ht : s.turns with
  | nil => rw [ht] at h; cases h
  | cons a ts =>
    rw [ht] at h
    dsimp only at h ⊢
    rw [h]

theorem pushedNext_length (s : State) : s.pushedNext.length ≤ 1 := by
  unfold State.pushedNext
  split
  · split <;> simp
  · simp

theorem poppedNext_length (s : State) : s.poppedNext.length ≤ 1 := by
  unfold State.poppedNext
  split
  · simp [List.length_take]
  · simp

@[simp] theorem collect_zero (f : State → List Sample) (s : State) : collect f 0 s = [] := rfl

theorem collect_succ_next {f : State → List Sample} {n : Nat} {s t : State} (h : step s = .next t) :
    collect f (n + 1) s = f s ++ collect f n t := by
  simp only [collect, h]

/-- Every way a step can answer a next state: no turn is left; the agent whose turn it is has no call to make; it makes
again the call it is held in; or it makes its next call. -/
theorem step_cases {s t : State} (h : step s = .next t) :
    (s.turns = [] ∧ t = s) ∨
    ∃ a ts, s.turns = a :: ts ∧
      ((s.isHeld a = false ∧ s.callsOf a = [] ∧ t = s.withTurns ts) ∨
       (s.isHeld a = true ∧ exec (heldCall a) (s.withTurns ts) = .next t) ∨
       (∃ w ws i, s.isHeld a = false ∧ s.callsOf a = w :: ws ∧ decode w = .ok i ∧ agentOf i = a ∧
          exec i ((s.withTurns ts).withCalls a ws) = .next t)) := by
  unfold step at h
  split at h
  · next ht => cases h; exact .inl ⟨ht, rfl⟩
  · next a ts ht =>
    refine .inr ⟨a, ts, ht, ?_⟩
    cases hh : s.isHeld a with
    | true =>
      simp only [fetch, State.withTurns_isHeld, hh, if_true] at h
      exact .inr (.inl ⟨rfl, h⟩)
    | false =>
      simp only [fetch, State.withTurns_isHeld, hh] at h
      cases hp : presentCall a (s.withTurns ts) with
      | idle =>
        simp [hp] at h
        refine .inl ⟨rfl, ?_, h.symm⟩
        unfold presentCall at hp
        split at hp
        · next hc => simpa using hc
        · split at hp
          · cases hp
          · split at hp <;> cases hp
      | run i s' =>
        obtain ⟨w, ws, hc, hd, ha, rfl⟩ := presentCall_run hp
        simp [hp] at h
        exact .inr (.inr ⟨w, ws, i, rfl, by simpa using hc, hd, ha, h⟩)
      | refuse r => simp [hp] at h

end Machine

end Sys2Proof
end

