-- ==== Sys2Proof/Laws/PerInstr.lean ====
section
/-! SUPPORT. Statements about every transaction as syntax, one lemma per constructor of `Instr`. -/

namespace Sys2Proof.Laws

/-! ## `PresentedBy`: the agent that makes a transaction is the one its encoded kind names -/

def PresentedBy.Statement (i : Instr) : Prop := Machine.presenterOf (encode i) = Machine.agentOf i

theorem PresentedBy.wrSq1Ctrl (ahi v : Byte) : PresentedBy.Statement (.wrSq1Ctrl ahi v) := by
  simp [Statement, Machine.presenterOf, encode, Machine.agentOf]

theorem PresentedBy.wrSq1Sweep (ahi v : Byte) : PresentedBy.Statement (.wrSq1Sweep ahi v) := by
  simp [Statement, Machine.presenterOf, encode, Machine.agentOf]

theorem PresentedBy.wrSq1Lo (ahi v : Byte) : PresentedBy.Statement (.wrSq1Lo ahi v) := by
  simp [Statement, Machine.presenterOf, encode, Machine.agentOf]

theorem PresentedBy.wrSq1Hi (ahi v : Byte) : PresentedBy.Statement (.wrSq1Hi ahi v) := by
  simp [Statement, Machine.presenterOf, encode, Machine.agentOf]

theorem PresentedBy.wrSq2Ctrl (ahi v : Byte) : PresentedBy.Statement (.wrSq2Ctrl ahi v) := by
  simp [Statement, Machine.presenterOf, encode, Machine.agentOf]

theorem PresentedBy.wrSq2Sweep (ahi v : Byte) : PresentedBy.Statement (.wrSq2Sweep ahi v) := by
  simp [Statement, Machine.presenterOf, encode, Machine.agentOf]

theorem PresentedBy.wrSq2Lo (ahi v : Byte) : PresentedBy.Statement (.wrSq2Lo ahi v) := by
  simp [Statement, Machine.presenterOf, encode, Machine.agentOf]

theorem PresentedBy.wrSq2Hi (ahi v : Byte) : PresentedBy.Statement (.wrSq2Hi ahi v) := by
  simp [Statement, Machine.presenterOf, encode, Machine.agentOf]

theorem PresentedBy.wrTriCtrl (ahi v : Byte) : PresentedBy.Statement (.wrTriCtrl ahi v) := by
  simp [Statement, Machine.presenterOf, encode, Machine.agentOf]

theorem PresentedBy.wrTriLo (ahi v : Byte) : PresentedBy.Statement (.wrTriLo ahi v) := by
  simp [Statement, Machine.presenterOf, encode, Machine.agentOf]

theorem PresentedBy.wrTriHi (ahi v : Byte) : PresentedBy.Statement (.wrTriHi ahi v) := by
  simp [Statement, Machine.presenterOf, encode, Machine.agentOf]

theorem PresentedBy.wrEnable (ahi v : Byte) : PresentedBy.Statement (.wrEnable ahi v) := by
  simp [Statement, Machine.presenterOf, encode, Machine.agentOf]

theorem PresentedBy.wrFrameMode (ahi v : Byte) : PresentedBy.Statement (.wrFrameMode ahi v) := by
  simp [Statement, Machine.presenterOf, encode, Machine.agentOf]

theorem PresentedBy.wrUnmapped (ahi off v : Byte) : PresentedBy.Statement (.wrUnmapped ahi off v) := by
  simp [Statement, Machine.presenterOf, encode, Machine.agentOf]

theorem PresentedBy.rdStatus (ahi : Byte) : PresentedBy.Statement (.rdStatus ahi) := by
  simp [Statement, Machine.presenterOf, encode, Machine.agentOf]

theorem PresentedBy.rdZero (ahi off : Byte) : PresentedBy.Statement (.rdZero ahi off) := by
  simp [Statement, Machine.presenterOf, encode, Machine.agentOf]

theorem PresentedBy.stepc : PresentedBy.Statement .stepc := by
  simp [Statement, Machine.presenterOf, encode, Machine.agentOf]

theorem PresentedBy.stepf : PresentedBy.Statement .stepf := by
  simp [Statement, Machine.presenterOf, encode, Machine.agentOf]

theorem PresentedBy.push : PresentedBy.Statement .push := by
  simp [Statement, Machine.presenterOf, encode, Machine.agentOf]

theorem PresentedBy.pop : PresentedBy.Statement .pop := by
  simp [Statement, Machine.presenterOf, encode, Machine.agentOf]

end Sys2Proof.Laws
end

