-- ==== Sys2Proof/Tests/Slice0.lean ====
section
/-! SUPPORT. The model's own tests: well-formedness, decoding of words written out from the spec, one step at a time with
the results of spec/95_test_vectors.md, and for every statement with hypotheses a state that meets them all. -/

open Sys2Proof Sys2Proof.Machine

namespace Sys2Proof.Tests

/-! ## Well-formedness: each check refuses an ill-formed term -/

theorem test_wf_unmapped_takes_no_mapped_offset : (Instr.wrUnmapped 0x40 0x17 0xFF).wellFormed = false := by decide
theorem test_wf_unmapped_takes_a_hole : (Instr.wrUnmapped 0x40 0x09 0xFF).wellFormed = true := by decide
theorem test_wf_zero_read_takes_no_status_offset : (Instr.rdZero 0x40 0x15).wellFormed = false := by decide
theorem test_wf_zero_read_takes_a_write_only_offset : (Instr.rdZero 0x40 0x00).wellFormed = true := by decide

/-! ## Decoding: one word per constructor, from the fields of 30_encoding.md R91, R92, R109 and the words of
95_test_vectors.md L2 -/

theorem test_decode_square1 :
    decode 0x014000C5 = .ok (.wrSq1Ctrl 0x40 0xC5) ∧ decode 0x01400199 = .ok (.wrSq1Sweep 0x40 0x99) ∧
    decode 0x014002AB = .ok (.wrSq1Lo 0x40 0xAB) ∧ decode 0x01400305 = .ok (.wrSq1Hi 0x40 0x05) := ⟨rfl, rfl, rfl, rfl⟩

theorem test_decode_square2 :
    decode 0x0140043F = .ok (.wrSq2Ctrl 0x40 0x3F) ∧ decode 0x01400599 = .ok (.wrSq2Sweep 0x40 0x99) ∧
    decode 0x01400600 = .ok (.wrSq2Lo 0x40 0x00) ∧ decode 0x014007F8 = .ok (.wrSq2Hi 0x40 0xF8) := ⟨rfl, rfl, rfl, rfl⟩

theorem test_decode_triangle :
    decode 0x014008FF = .ok (.wrTriCtrl 0x40 0xFF) ∧ decode 0x01400A34 = .ok (.wrTriLo 0x40 0x34) ∧
    decode 0x01400BFF = .ok (.wrTriHi 0x40 0xFF) := ⟨rfl, rfl, rfl⟩

theorem test_decode_global :
    decode 0x014015FE = .ok (.wrEnable 0x40 0xFE) ∧ decode 0x014017C0 = .ok (.wrFrameMode 0x40 0xC0) ∧
    decode 0x01FF0900 = .ok (.wrUnmapped 0xFF 0x09 0x00) ∧ decode 0x02411500 = .ok (.rdStatus 0x41) ∧
    decode 0x02400000 = .ok (.rdZero 0x40 0x00) := ⟨rfl, rfl, rfl, rfl, rfl⟩

theorem test_decode_steps :
    decode 0x10000000 = .ok .stepc ∧ decode 0x11000000 = .ok .stepf ∧ decode 0x12000000 = .ok .push ∧
    decode 0x20000000 = .ok .pop := ⟨rfl, rfl, rfl, rfl⟩

/-- 95_test_vectors.md L2.8. -/
theorem test_decode_invalid_words :
    decode 0x03000000 = .error (.unknownKind 0x03) ∧ decode 0x00000000 = .error (.unknownKind 0x00) ∧
    decode 0x10000001 = .error .dataNotZero ∧ decode 0x10010000 = .error .addressNotZero ∧
    decode 0x11000100 = .error .addressNotZero ∧ decode 0x02401501 = .error .dataNotZero ∧
    decode 0x20000001 = .error .dataNotZero := ⟨rfl, rfl, rfl, rfl, rfl, rfl, rfl⟩

theorem test_decode_table_word : decodeTableWord 32 0x014003F8 = some (.wrSq1Hi 0x40 0xF8) := by rfl

/-! ## One step at a time -/

/-- A view of the state an outcome goes on with. -/
def after {α : Type} (view : State → α) : Result → Option α
  | .next s => some (view s)
  | .fault _ => none
  | .refused _ => none

/-- The reset state with another record for square 1. -/
def stateWith (q : Square) (c : Config := defaultConfig) : State := (State.resetWith c).withSq1 q

/-- A square in fixed-volume mode with a timer of 8 and a length of 254 (95_test_vectors.md L1.2). -/
def loud : Square := { Square.reset with envelope := 15, envelopeDisabled := true, timer := 8, length := 254 }

/-- The reset state with all three lengths loaded (95_test_vectors.md RD2). -/
def threeLengths (c : Config := defaultConfig) : State :=
  (((State.resetWith c).withSq1 { Square.reset with length := 30 }).withSq2 { Square.reset with length := 254 }).withTri
    { Triangle.reset with length := 1 }

/-- W2. -/
theorem test_wrSq1Ctrl : after (fun s => (s.apu.sq1.dutyCycle, s.apu.sq1.lengthDisabled, s.apu.sq1.envelopeDisabled,
    s.apu.sq1.envelope)) (exec (.wrSq1Ctrl 0x40 0xC5) State.reset) = some (3, false, false, 5) := by decide

/-- W5. -/
theorem test_wrSq1Sweep : after (fun s => (s.apu.sq1.sweepEnabled, s.apu.sq1.sweepPeriod, s.apu.sq1.negative,
    s.apu.sq1.shift)) (exec (.wrSq1Sweep 0x40 0x99) State.reset) = some (true, 2, true, 1) := by decide

/-- W7: the period field of 7 is 8. -/
theorem test_wrSq1Sweep_longest : after (fun s => (s.apu.sq1.sweepPeriod, s.apu.sq1.shift))
    (exec (.wrSq1Sweep 0x40 0xFF) State.reset) = some (8, 7) := by decide

/-- W10, its second write. -/
theorem test_wrSq1Lo : after (fun s => s.apu.sq1.timer)
    (exec (.wrSq1Lo 0x40 0xFF) (stateWith { Square.reset with timer := 0x700 })) = some 2047 := by decide

/-- W9, its second write. -/
theorem test_wrSq1Hi : after (fun s => (s.apu.sq1.timer, s.apu.sq1.length))
    (exec (.wrSq1Hi 0x40 0x05) (stateWith { Square.reset with timer := 0xAB })) = some (1451, 10) := by decide

/-- W13: index 31 gives 30. -/
theorem test_wrSq1Hi_last_entry : after (fun s => (s.apu.sq1.timer, s.apu.sq1.length))
    (exec (.wrSq1Hi 0x40 0xFF) State.reset) = some (1792, 30) := by decide

/-- W1 for the second square. -/
theorem test_wrSq2Ctrl : after (fun s => (s.apu.sq2.dutyCycle, s.apu.sq2.lengthDisabled, s.apu.sq2.envelopeDisabled,
    s.apu.sq2.envelope, s.apu.sq1)) (exec (.wrSq2Ctrl 0x40 0x3F) State.reset) =
    some (0, true, true, 15, Square.reset) := by decide

/-- P3. -/
theorem test_wrSq2Sweep : after (fun s => (s.apu.sq2.sweepEnabled, s.apu.sq2.sweepPeriod, s.apu.sq2.negative,
    s.apu.sq2.shift)) (exec (.wrSq2Sweep 0x40 0x99) State.reset) = some (true, 2, true, 1) := by decide

theorem test_wrSq2Lo : after (fun s => (s.apu.sq2.timer, s.apu.sq1.timer)) (exec (.wrSq2Lo 0x40 0xAB) State.reset) =
    some (0xAB, 0) := by decide

/-- W15. -/
theorem test_wrSq2Hi : after (fun s => (s.apu.sq2.length, s.apu.sq1)) (exec (.wrSq2Hi 0x40 0xF8) State.reset) =
    some (30, Square.reset) := by decide

/-- W16. -/
theorem test_wrTriCtrl : after (fun s => (s.apu.tri.internalCountersDisabled, s.apu.tri.value))
    (exec (.wrTriCtrl 0x40 0xFF) State.reset) = some (true, 127) := by decide

/-- W17, its first write. -/
theorem test_wrTriLo : after (fun s => s.apu.tri.timer) (exec (.wrTriLo 0x40 0x34) State.reset) = some 0x34 := by decide

/-- W17, its second write: the length is the raw field. -/
theorem test_wrTriHi : after (fun s => (s.apu.tri.timer, s.apu.tri.length))
    (exec (.wrTriHi 0x40 0xFF) (State.reset.withTri { Triangle.reset with timer := 0x34 })) =
    some (1844, 31) := by decide

/-- W20, its last write: the flags, and the length of square 1 zeroed. -/
theorem test_wrEnable : after (fun s => ([s.apu.square1Enabled, s.apu.square2Enabled, s.apu.triangleEnabled,
    s.apu.noiseEnabled, s.apu.dmcEnabled], s.apu.sq1.length, s.apu.sq2.length)) (exec (.wrEnable 0x40 0xFE) threeLengths) =
    some ([false, true, true, true, true], 0, 254) := by decide

/-- Q8: the sample is cleared under `P_DISABLE_CLEARS_SAMPLE`. -/
theorem test_wrEnable_clears_sample : after (fun s => s.apu.sq1.sample) (exec (.wrEnable 0x40 0x00)
    (stateWith { loud with sample := 15 } { defaultConfig with disableClearsSample := true })) = some 0 := by decide

/-- W22. -/
theorem test_wrFrameMode_five : after (fun s => (s.apu.frameMode, s.apu.frameCounter))
    (exec (.wrFrameMode 0x40 0xC0) State.reset) = some (.five, 5) := by decide

/-- W21. -/
theorem test_wrFrameMode_four : after (fun s => (s.apu.frameMode, s.apu.frameCounter))
    (exec (.wrFrameMode 0x40 0x7F) (State.reset.withFrameCounter 2)) = some (.four, 4) := by decide

/-- W24. -/
theorem test_wrUnmapped : after (fun s => s.apu) (exec (.wrUnmapped 0x40 0x16 0xFF) State.reset) =
    some Apu.reset := by decide

/-- RD2. -/
theorem test_rdStatus : after (fun s => s.host.reads) (exec (.rdStatus 0x40) threeLengths) = some [0x0B] := by decide

/-- RD7. -/
theorem test_rdStatus_bit2 : after (fun s => s.host.reads)
    (exec (.rdStatus 0x40) (threeLengths { defaultConfig with statusTriBit := .bit2 })) = some [0x07] := by decide

/-- RD4. -/
theorem test_rdZero : after (fun s => s.host.reads) (exec (.rdZero 0x40 0x00) threeLengths) = some [0x00] := by decide

/-- Q2: the first clock reloads the divider and advances the duty step; the envelope is the written one. -/
theorem test_stepc_square : after (fun s => (s.apu.sq1.envelope, s.apu.sq1.dutyCount, s.apu.sq1.timerCount,
    s.apu.sq1.sample)) (exec .stepc
    ((stateWith { loud with envelope := 7, envelopeDisabled := false, dutyCycle := 2 }).withEnables true false false false false)) = some (7, 1, 17, 7) := by decide

/-- T1, its first call. -/
theorem test_stepc_triangle : after (fun s => (s.apu.tri.sample, s.apu.tri.counter)) (exec .stepc
    ((State.reset.withTri { Triangle.reset with timer := 1 }).withEnables false false true false false)) =
    some (8, 1) := by decide

/-- S4, its fifth tick: the sum wraps at 11 bits. -/
theorem test_stepf_wraps : after (fun s => (s.apu.sq1.timer, s.apu.sq1.sweepPeriod, s.apu.frameCounter)) (exec .stepf
    (stateWith { Square.reset with timer := 1600, sweepEnabled := true, sweepPeriod := 7 })) =
    some (1152, 6, 3) := by decide

/-- S3: the countdown reaches 0 before the sweep test. -/
theorem test_stepf_countdown_first : after (fun s => (s.apu.sq1.timer, s.apu.sq1.sweepPeriod)) (exec .stepf
    (stateWith { Square.reset with timer := 256, sweepEnabled := true, sweepPeriod := 1 })) =
    some (256, 0) := by decide

/-- M6. -/
theorem test_push_mixes : after (fun s => s.apu.fifo) (exec .push
    ((State.reset.withSq1 { Square.reset with sample := 7 }).withSq2 { Square.reset with sample := 1 })) =
    some [4211] := by decide

/-- A reset block of depth 1, its FIFO full. -/
def fullState : State := (State.resetWith { defaultConfig with fifoDepthLess1 := 0 }).withFifo [7322]

/-- FQ2, with a depth of 1. -/
theorem test_push_to_full_holds : after (fun s => (s.apu.fifo, s.host.held)) (exec .push fullState) =
    some ([7322], true) := by decide

/-- FQ5, its first pop. -/
theorem test_pop_takes_the_oldest : after (fun s => (s.consumer.received, s.apu.fifo)) (exec .pop
    (State.reset.withFifo [7322, 0])) = some ([7322], [0]) := by decide

/-- FQ4. -/
theorem test_pop_from_empty_waits : after (fun s => (s.consumer.held, s.apu)) (exec .pop State.reset) =
    some (true, Apu.reset) := by decide

/-- L1.3, its first write, as the first step after reset. -/
theorem test_step_runs_the_placed_word : after (fun s => (s.apu.sq1.length, s.host.calls, s.turns))
    (step (State.reset.withFetchWord 32 0x014003F8)) = some (30, [], []) := by decide

/-- P1's first write, sixth and seventh words loaded as a transcript: the first step runs the first word. -/
theorem test_step_runs_a_loaded_transcript : after (fun s => (s.apu.sq1.envelope, s.host.calls, s.consumer.calls, s.turns))
    (step (State.reset.load [0x0140003F, 0x10000000, 0x20000000])) =
    some (15, [0x10000000], [0x20000000], [.host, .consumer]) := by decide

/-! ## Witnesses: for every statement with hypotheses, a state and operands that meet them all -/

/-- `P_SWEEP_OVERFLOW` other than the default. -/
def withOverflow (o : SweepOverflow) : Config := { defaultConfig with sweepOverflow := o }

/-- A machine in which the agent `a` has the calls `ws` and the turn. -/
def turnOf (a : Agent) (ws : List Word) : State := (State.reset.withCalls a ws).withTurns [a]

/-- The last index, 31, and the one before it, which the fixed entry does not reach. -/
theorem witness_SquareTimerHighWriteLoadsLength :
    (0xF8 : Byte).toNat / 8 = 31 ∧ (0xFF : Byte).toNat / 8 = 31 ∧ ¬ (0xF7 : Byte).toNat / 8 = 31 := by decide

/-- An offset of each of the four ranges, at both ends of the two that are intervals. -/
theorem witness_UnmappedWriteChangesNothing :
    (0x09 : Byte).toNat = 0x09 ∧ (0x0C ≤ (0x0C : Byte).toNat ∧ (0x0C : Byte).toNat ≤ 0x14) ∧
    (0x0C ≤ (0x14 : Byte).toNat ∧ (0x14 : Byte).toNat ≤ 0x14) ∧ (0x16 : Byte).toNat = 0x16 ∧
    0x18 ≤ (0x18 : Byte).toNat ∧ 0x18 ≤ (0xFF : Byte).toNat := by decide

theorem witness_ZeroReadReturnsZero : (0x00 : Byte) ≠ 0x15 ∧ (0x14 : Byte) ≠ 0x15 ∧ (0x16 : Byte) ≠ 0x15 := by decide

theorem witness_StatusReadReportsNonZeroLengths :
    0 < (threeLengths.apu.sq1.length).toNat ∧ 0 < (threeLengths.apu.sq2.length).toNat ∧
    0 < (threeLengths.apu.tri.length).toNat ∧ threeLengths.cfg.statusTriBit = .bit3 ∧
    (threeLengths { defaultConfig with statusTriBit := .bit2 }).cfg.statusTriBit = .bit2 := by decide

/-- The sounding square of the witnesses: enabled, a timer of exactly 8, a length of 254. -/
def soundingState : State := (stateWith loud).withEnables true false true false false

theorem soundingState_pitched : soundingState.Pitched .one := ⟨rfl, by decide⟩
theorem loud_not_silent (c : Config) : ¬ Silent c loud := fun h => absurd h.1 (by decide)

/-- A clocked channel and, with a timer of 7, one that is not; a triangle that is clocked and one that is not. -/
theorem witness_StepCycleClocksTheOscillators :
    soundingState.Pitched .one ∧
    ¬ ((stateWith { loud with timer := 7 }).withEnables true false false false false).Pitched .one ∧
    (let t := soundingState.withTri { Triangle.reset with timer := 1 };
      t.cfg.stepClocksTriangle = true ∧ t.apu.triangleEnabled = true ∧ 0 < t.apu.tri.timer.toNat) ∧
    ¬ 0 < soundingState.apu.tri.timer.toNat :=
  ⟨soundingState_pitched, fun h => absurd h.2 (by decide), by decide, by decide⟩

/-- The three ways a square is clocked: silent, at a reload, and between reloads. -/
theorem witness_SquareClocked :
    Silent defaultConfig Square.reset ∧
    (¬ Silent defaultConfig loud ∧ loud.timerCount = 0) ∧
    (¬ Silent defaultConfig { loud with timerCount := 1 } ∧ ({ loud with timerCount := 1 } : Square).timerCount ≠ 0) ∧
    ¬ Silent { defaultConfig with lengthDisableMode := .bypassGate } { loud with length := 0, lengthDisabled := true } :=
  ⟨⟨rfl, fun h => absurd h.2 (by decide)⟩, ⟨loud_not_silent _, rfl⟩, ⟨fun h => absurd h.1 (by decide), by decide⟩,
    fun h => h.2 ⟨rfl, rfl⟩⟩

/-- A square whose sweep acts on the next tick that sees 4, with a countdown that stands at 2. -/
def sweeping (negative : Bool) (timer : Nat) : Square :=
  { Square.reset with timer := timer, sweepEnabled := true, sweepPeriod := 2, shift := 1, negative := negative }

/-- Each clause of the tick: a half-frame tick and another, a sweep that acts and one whose countdown has just run out, a
counter at its end under `reload`, and every pair of direction and overflow rule. -/
theorem witness_StepFrameRunsOneTick :
    State.reset.apu.frameCounter = 4 ∧ ¬ (State.reset.withFrameCounter 5).apu.frameCounter < 5 ∧
    after (fun s => s.apu.sq1.sweepPeriod.toNat) (exec .stepf (stateWith (sweeping false 256))) = some 1 ∧
    after (fun s => s.apu.sq1.sweepPeriod.toNat)
      (exec .stepf (stateWith { sweeping false 256 with sweepPeriod := 1 })) = some 0 ∧
    (State.reset.cfg.frameWrap = .reload ∧ (State.reset.withFrameCounter 1).apu.frameCounter - 1 ≤ 0) ∧
    (∀ n, (sweeping n 256).negative = n) ∧ (∀ o, (withOverflow o).sweepOverflow = o) :=
  ⟨rfl, by decide, by decide, by decide, by decide, fun _ => rfl, fun _ => rfl⟩

theorem witness_PushWithRoomAppendsMixedSample :
    State.reset.apu.fifo.length ≠ fifoDepth State.reset.cfg := by decide

theorem witness_PushToFullFifoHoldsHost : fullState.apu.fifo.length = fifoDepth fullState.cfg := by decide

theorem witness_PopDeliversHeadOrWaits : fullState.apu.fifo = [7322] ∧ State.reset.apu.fifo = [] := ⟨rfl, rfl⟩

/-- The smallest and the largest sum. -/
theorem witness_MixIsTheTruncatedFormula :
    0 < (1 : BitVec 4).toNat + (0 : BitVec 4).toNat ∧ 0 < (15 : BitVec 4).toNat + (15 : BitVec 4).toNat := by decide

theorem witness_MixIsStrictlyIncreasingInTheSum :
    (0 : BitVec 4).toNat + (0 : BitVec 4).toNat < (1 : BitVec 4).toNat + (0 : BitVec 4).toNat ∧
    (8 : BitVec 4).toNat + (7 : BitVec 4).toNat = (15 : BitVec 4).toNat + (0 : BitVec 4).toNat := by decide

theorem witness_DecodeOfEncodeIsIdentity : (Instr.wrUnmapped 0xFF 0x09 0x00).WellFormed := by decide

theorem witness_EncodeOfDecodeIsIdentity : decode 0x01FF0900 = .ok (.wrUnmapped 0xFF 0x09 0x00) := rfl

/-- W13 and W23: the same register under two high address bytes. -/
theorem witness_HighAddressBitsAreIgnored :
    decode 0x014003F8 = .ok (.wrSq1Hi 0x40 0xF8) ∧ decode 0x011203F8 = .ok (.wrSq1Hi 0x12 0xF8) ∧
    Word.kind 0x014003F8 = Word.kind 0x011203F8 ∧ Word.off 0x014003F8 = Word.off 0x011203F8 ∧
    Word.data 0x014003F8 = Word.data 0x011203F8 := ⟨rfl, rfl, by decide, by decide, by decide⟩

theorem witness_StepRunsTheDecodedCall :
    (turnOf .consumer [0x20000000]).turns = [.consumer] ∧ (turnOf .consumer [0x20000000]).isHeld .consumer = false ∧
    (turnOf .consumer [0x20000000]).callsOf .consumer = [0x20000000] ∧ decode 0x20000000 = .ok .pop ∧
    agentOf .pop = .consumer := ⟨rfl, rfl, rfl, rfl, rfl⟩

/-- One state for each of the four clauses. -/
theorem witness_HeldAndIdleAgentsMakeNoNewCall :
    ((fullState.holdHost true).withTurns [.host]).host.held = true ∧
    ((State.reset.holdConsumer true).withTurns [.consumer]).consumer.held = true ∧
    ((turnOf .host []).isHeld .host = false ∧ (turnOf .host []).callsOf .host = []) ∧
    State.reset.turns = [] := ⟨rfl, rfl, ⟨rfl, rfl⟩, rfl⟩

theorem witness_StepRunsThePlacedWord :
    decodeTableWord 32 0x10000000 = some .stepc ∧ decode (tableWord 32 0x03000000) = .error (.unknownKind 0x03) :=
  ⟨rfl, rfl⟩

/-- One state for each of the two refusals. -/
theorem witness_StepIsRefusedOnlyForBadWords :
    step (turnOf .host [0x03000000]) = .refused (.invalidWord 0x03000000 (.unknownKind 0x03)) ∧
    step (turnOf .consumer [0x10000000]) = .refused (.wrongAgent .consumer .stepc) := ⟨rfl, rfl⟩

/-- A state that stands at the edge of every range of the invariant. -/
def edge : State :=
  { turnOf .host [0x11000000] with
    apu := { Apu.reset with
      sq1 := { Square.reset with timer := 2047, timerCount := 4095, length := 254, sweepPeriod := 8 }
      tri := { Triangle.reset with length := 31 }
      frameCounter := 5
      frameMode := .five
      fifo := List.replicate 100 12671 } }

theorem edge_inv : edge.Inv where
  sq1 := { timer := fun _ => by decide, timerCount := fun _ => by decide, length := ⟨1, by decide⟩,
           sweepPeriod := by decide }
  sq2 := { timer := fun _ => by decide, timerCount := fun _ => by decide, length := ⟨1, by decide⟩,
           sweepPeriod := by decide }
  triLength := by decide
  frameTop := by decide
  frameBottom := fun _ => by decide
  fifoLength := by decide
  fifoRange := fun x hx => by rw [List.eq_of_mem_replicate hx]; decide

theorem witness_EveryStepKeepsTheInvariant : edge.Inv ∧ ∃ t, step edge = .next t := ⟨edge_inv, _, rfl⟩

theorem witness_NoStepChangesTheParameters : ∃ t, step edge = .next t := ⟨_, rfl⟩

/-- Two steps: a push of the mixed samples 7 and 1 (M6), and the pop that takes it. -/
theorem witness_StreamKeepsOrderAndLosesNothing :
    (let s := ((State.reset.withSq1 { Square.reset with sample := 7 }).withSq2
        { Square.reset with sample := 1 }).load [0x12000000, 0x20000000];
      after (fun t => t.consumer.received) (core.run 2 s) = some [4211] ∧
      collect State.pushedNext 2 s = [4211] ∧ collect State.poppedNext 2 s = [4211]) := by decide

/-- A host held on a full FIFO, with turns of its own to come. -/
def hung : State := (fullState.holdHost true).withTurns [.host, .host]

/-- A push to a full FIFO adds nothing. -/
theorem test_pushedNext_full : (hung.pushedNext, hung.poppedNext) = ([], []) := by decide

theorem witness_HeldHostHangsWithoutTheConsumer :
    hung.host.held = true ∧ hung.apu.fifo.length = fifoDepth hung.cfg ∧ Agent.consumer ∉ hung.turns := by decide

/-- The hung host, with a pop to come before its turn; and the same with the consumer waiting already. -/
def relieved (held : Bool) : State :=
  ((hung.withCalls .consumer [encode .pop]).holdConsumer held).withTurns [.consumer, .host]

theorem witness_PopLetsTheHeldPushComplete :
    ∀ held, (relieved held).turns = [.consumer, .host] ∧ (relieved held).host.held = true ∧
      (relieved held).apu.fifo = [7322] ∧ (relieved held).apu.fifo.length = fifoDepth (relieved held).cfg ∧
      (relieved held).consumer.held = held ∧ (relieved held).consumer.calls = [encode .pop] := by decide

theorem witness_HeldHostFreezesTheBlock : hung.host.held = true ∧ ∃ t, step hung = .next t := ⟨rfl, _, rfl⟩

theorem witness_ConsumerReachesOnlyTheStream :
    (relieved false).turns = [.consumer, .host] ∧ ∃ t, step (relieved false) = .next t := ⟨rfl, _, rfl⟩

/-- A channel-enable write that keeps bit 0 and clears bit 2, under `P_DISABLE_CLEARS_SAMPLE`; a `STEPC` of a channel
below the pitch threshold and of a triangle whose gate is closed, and one of a silent channel. -/
theorem witness_HiddenFieldsMoveOnlyByTheClock :
    (let s := stateWith loud { defaultConfig with disableClearsSample := true };
      (∃ t, exec (.wrEnable 0x40 0x01) s = .next t) ∧ ¬ ClearsSample s.cfg (.wrEnable 0x40 0x01) Channel.one.enableBit ∧
      ClearsSample s.cfg (.wrEnable 0x40 0x01) 2) ∧
    (let s := stateWith { loud with timer := 7 };
      (∃ t, exec .stepc s = .next t) ∧ ¬ s.Pitched .one ∧ ¬ s.TriangleClocked ∧ ¬ ClearsSample s.cfg .stepc 2) ∧
    (let s := (stateWith { loud with length := 0 }).withEnables true false false false false;
      ∃ t, exec .stepc s = .next t ∧ s.Pitched .one ∧ Silent s.cfg (s.square .one)) := by
  refine ⟨⟨⟨_, rfl⟩, ?_, rfl, _, _, rfl, by decide⟩, ⟨⟨_, rfl⟩, fun h => absurd h.2 (by decide),
    fun h => absurd h.2.1 (by decide), fun h => absurd h.1 (by decide)⟩,
    ⟨_, rfl, ⟨rfl, by decide⟩, ⟨rfl, fun h => absurd h.2 (by decide)⟩⟩⟩
  rintro ⟨-, ahi, v, h, hv⟩
  cases h
  exact absurd hv (by decide)

theorem witness_RegisterWritesAreIdempotent :
    Word.kind (encode (.wrSq1Lo 0x40 0xFF)) = 0x01 ∧ ∃ t, exec (.wrSq1Lo 0x40 0xFF) soundingState = .next t :=
  ⟨by decide, _, rfl⟩

/-- A silent channel that is clocked, as each of the two squares; and a reload of the other square. -/
theorem witness_SilentSquareStaysSilentUntilReloaded :
    (let s := (stateWith { loud with length := 0 }).withEnables true false false false false;
      (∃ t, exec .stepc s = .next t) ∧ (s.square .one).length = 0 ∧ s.Pitched .one ∧ Silent s.cfg (s.square .one)) ∧
    ((∃ t, exec (.wrSq1Hi 0x40 0xF8) State.reset = .next t) ∧ (State.reset.square .two).length = 0 ∧
      ∀ ahi v, Instr.wrSq1Hi 0x40 0xF8 ≠ .wrSq2Hi ahi v) :=
  ⟨⟨⟨_, rfl⟩, rfl, ⟨rfl, by decide⟩, ⟨rfl, fun h => absurd h.2 (by decide)⟩⟩,
    ⟨⟨_, rfl⟩, rfl, fun _ _ h => nomatch h⟩⟩

/-- The two channels of two machines, in the same state. -/
theorem witness_SquaresAreIndependent :
    (let s := soundingState;
     let s' := (State.reset.withSq2 loud).withEnables false true false false false;
      s.cfg = s'.cfg ∧ s.square .one = s'.square .two ∧ s.squareEnabled .one = s'.squareEnabled .two ∧
      s.apu.frameCounter = s'.apu.frameCounter ∧ (∃ t, exec .stepc s = .next t) ∧ (∃ t, exec .stepc s' = .next t) ∧
      (∃ t, exec .stepf s = .next t) ∧ (∃ t, exec .stepf s' = .next t)) :=
  ⟨rfl, rfl, rfl, rfl, ⟨_, rfl⟩, ⟨_, rfl⟩, ⟨_, rfl⟩, ⟨_, rfl⟩⟩

/-- A fold that sends 0x10 to 1, and the envelopes of a channel written 0x10 under it and under the default. -/
theorem witness_EnvelopeFoldIsUnobservable :
    SameButEnvelopeFold
      (stateWith { Square.reset with envelopeDisabled := true })
      (stateWith { Square.reset with envelopeDisabled := true, envelope := 1 }
        { defaultConfig with envFoldExceptions := [(0x10, 1)] }) where
  cfg := ⟨rfl, fun v h => by
    have hv : (v == 0x10) = false := beq_eq_false_iff_ne.2 fun h' => absurd (h' ▸ h) (by decide)
    show (List.lookup v [((0x10 : Byte), (1 : BitVec 4))]).getD _ = _
    rw [List.lookup, hv]; rfl⟩
  sq1 := ⟨rfl, fun h => absurd h (by decide)⟩
  sq2 := ⟨rfl, fun _ => rfl⟩
  rest := rfl

theorem witness_TriangleReachesNoOutput :
    SameButTriangle State.reset
      ((State.reset.withTri { Triangle.reset with timer := 1, sample := 15 }).withEnables false false true false false) :=
  ⟨rfl, rfl⟩

/-- The first and the last clock of a period. -/
theorem witness_DutyStepAdvancesOncePerPeriod :
    soundingState.Pitched .one ∧ ¬ Silent soundingState.cfg (soundingState.square .one) ∧
    (soundingState.square .one).timerCount = 0 ∧
    (1 ≤ 1 ∧ 1 ≤ 2 * ((soundingState.square .one).timer + 1)) ∧
    (1 ≤ 18 ∧ 18 ≤ 2 * ((soundingState.square .one).timer + 1)) :=
  ⟨soundingState_pitched, loud_not_silent _, rfl, by decide, by decide⟩

theorem witness_TriangleRunsThroughItsTable :
    (let s := soundingState.withTri { Triangle.reset with timer := 1 };
      s.cfg.stepClocksTriangle = true ∧ s.apu.triangleEnabled = true ∧ 0 < s.apu.tri.timer.toNat) := by decide

theorem witness_DisabledChannelsAreNotClocked :
    (∀ k, (stateWith loud).squareEnabled k = false) ∧ (stateWith loud).apu.triangleEnabled = false :=
  ⟨fun k => by cases k <;> rfl, rfl⟩

/-- A 4-step and a 5-step sequence at their start. -/
def atStart (m : FrameMode) (q : Square) : State :=
  ((stateWith q).withFrameMode m).withFrameCounter (frameModeNumber m)

theorem witness_FrameCounterRepeatsUnderReload : ∀ m, (atStart m loud).cfg.frameWrap = .reload ∧
    (atStart m loud).apu.frameCounter = frameModeNumber (atStart m loud).apu.frameMode := fun _ => ⟨rfl, rfl⟩

/-- `P_FRAME_WRAP = literal`, with a counter that has yet to see its one half-frame tick and one that is past it. -/
theorem witness_FrameCounterFallsUnderLiteral :
    (let s := stateWith loud { defaultConfig with frameWrap := .literal };
      s.cfg.frameWrap = .literal ∧ s.cfg.lengthDisableMode ≠ .haltDecrement ∧
      (4 ≤ s.apu.frameCounter ∧ s.apu.frameCounter - (1 : Nat) < 4) ∧
      ¬ 4 ≤ (s.withFrameCounter 3).apu.frameCounter) := by decide

/-- Both modes, and the first and last `r` of each range. -/
theorem witness_LengthCountsHalfFrameTicks :
    ∀ m, (atStart m loud).cfg.frameWrap = .reload ∧
      ¬ ((atStart m loud).cfg.lengthDisableMode = .haltDecrement ∧
        ((atStart m loud).square .one).lengthDisabled = true) ∧
      (atStart m loud).apu.frameCounter = frameModeNumber (atStart m loud).apu.frameMode ∧
      (atStart m loud).apu.frameMode = m ∧
      (1 ≤ 1 ∧ 1 ≤ 4) ∧ (1 ≤ 4 ∧ 4 ≤ 4) ∧ (2 ≤ 2 ∧ 2 ≤ 6) ∧ (2 ≤ 6 ∧ 6 ≤ 6) :=
  fun _ => ⟨rfl, fun h => LengthDisableMode.noConfusion h.1, rfl, rfl, by decide⟩

/-- Both modes, with the shortest countdown of 1, on which the sweep never acts, and the longest of 8. -/
theorem witness_SweepActsFourTimesPerRemainingPeriod :
    ∀ m, ∀ p ∈ [(1 : BitVec 4), 8],
      (let s := atStart m { sweeping false 256 with sweepPeriod := p };
        s.cfg.frameWrap = .reload ∧ s.apu.frameCounter = frameModeNumber s.apu.frameMode ∧
        (s.square .one).sweepEnabled = true ∧ 1 ≤ (s.square .one).sweepPeriod.toNat) := by
  intro m p hp
  refine ⟨rfl, rfl, rfl, ?_⟩
  show 1 ≤ p.toNat
  revert p
  decide

/-- The tick that sees 4 with a countdown of 2 leaves 1, so the sweep acts, whatever the direction and the overflow
rule; the timer is at the top of its range. -/
theorem sweeping_inv (o : SweepOverflow) (n : Bool) : (stateWith (sweeping n 2047) (withOverflow o)).Inv where
  sq1 := { timer := fun _ => Nat.le_refl _, timerCount := fun _ => Nat.zero_le _, length := ⟨31, Nat.zero_le _⟩,
           sweepPeriod := by show (2 : BitVec 4).toNat ≤ 8; decide }
  sq2 := { timer := fun _ => Nat.zero_le _, timerCount := fun _ => Nat.zero_le _, length := ⟨31, Nat.zero_le _⟩,
           sweepPeriod := Nat.zero_le _ }
  triLength := Nat.zero_le _
  frameTop := Int.le_refl _
  frameBottom := fun _ => by show (1 : Int) ≤ 4; decide
  fifoLength := Nat.zero_le _
  fifoRange := fun _ h => nomatch h

theorem witness_SweepMovesTheTimerInItsDirection :
    (∀ o n, (stateWith (sweeping n 2047) (withOverflow o)).Inv) ∧
    (∀ o n, after (fun t => t.apu.sq1.sweepPeriod.toNat)
      (exec .stepf (stateWith (sweeping n 2047) (withOverflow o))) = some 1) ∧
    (∀ o n, (stateWith (sweeping n 2047) (withOverflow o)).apu.frameCounter < 5 ∧
      ((stateWith (sweeping n 2047) (withOverflow o)).square .one).sweepEnabled = true ∧
      ((stateWith (sweeping n 2047) (withOverflow o)).square .one).negative = n ∧
      (stateWith (sweeping n 2047) (withOverflow o)).cfg.sweepOverflow = o) ∧
    (edge.Inv ∧ (∃ t, exec .stepf edge = .next t) ∧ (edge.square .one).sweepEnabled = false) :=
  ⟨sweeping_inv, fun o n => by cases o <;> cases n <;> decide, fun _ _ => ⟨by show (4 : Int) < 5; decide, rfl, rfl, rfl⟩,
    edge_inv, ⟨_, rfl⟩, rfl⟩

end Sys2Proof.Tests
end

section
/-! PROOFS. No transaction, and so no step, changes the parameters (spec/20_memory.md R66). -/

namespace Sys2Proof.Machine

/-- A push writes the FIFO and the host's hold, on either side of its full test. -/
theorem execPush_cfg {s t : State} (h : execPush s = .next t) : t.cfg = s.cfg := by
  by_cases hf : s.apu.fifo.length = fifoDepth s.cfg
  · rw [execPush_full s hf] at h
    cases h
    simp
  · rw [execPush_room s hf] at h
    cases h
    simp

/-- A pop writes the FIFO and the consumer's side, on either side of its empty test. -/
theorem execPop_cfg {s t : State} (h : execPop s = .next t) : t.cfg = s.cfg := by
  cases hf : s.apu.fifo with
  | nil =>
    rw [execPop_empty s hf] at h
    cases h
    simp
  | cons x rest =>
    rw [execPop_cons s x rest hf] at h
    cases h
    simp

/-- Push and pop are the only transactions whose meaning branches on its next state; every other one answers a chain of
updates of the block and the host's side. -/
theorem exec_cfg {i : Instr} {s t : State} (h : exec i s = .next t) : t.cfg = s.cfg := by
  cases i with
  | push => exact execPush_cfg h
  | pop => exact execPop_cfg h
  | _ => cases h; rfl

/-- Settles O33: a step that runs no transaction changes at most `turns`, and one that runs a transaction runs it from a
state that differs from `s` in `turns` and the agents' calls only. -/
theorem noStepChangesTheParameters : Obligations.NoStepChangesTheParameters := by
  intro s t h
  obtain ⟨-, rfl⟩ | ⟨a, ts, -, ⟨-, -, rfl⟩ | ⟨-, hexec⟩ | ⟨w, ws, i, -, -, -, -, hexec⟩⟩ := step_cases h
  · rfl
  · simp
  · simpa using exec_cfg hexec
  · simpa using exec_cfg hexec

end Sys2Proof.Machine
end

section
/-! PROOFS. The state after reset (spec/10_state.md R43), and the ranges of the state (R27 to R31, R36, R38, R40): reset
meets them and every step keeps them. -/

namespace Sys2Proof.Machine

/-! ## What reset leaves -/

/-- Settles O29: the reset state is written out field by field, so each field is read off it. -/
theorem resetLeavesZeroesAndFourStepMode : Obligations.ResetLeavesZeroesAndFourStepMode := by
  intro c
  have hsquare : ∀ k, (State.resetWith c).square k = Square.reset := fun k => by cases k <;> rfl
  have henabled : ∀ k, (State.resetWith c).squareEnabled k = false := fun k => by cases k <;> rfl
  exact ⟨hsquare, rfl, henabled, rfl, rfl, rfl, rfl, rfl, rfl, rfl, rfl, rfl⟩

theorem SquareInv.reset (c : Config) : SquareInv c Square.reset where
  timer _ := Nat.zero_le _
  timerCount _ := Nat.zero_le _
  length := ⟨31, Nat.zero_le _⟩
  sweepPeriod := Nat.zero_le _

/-- Settles O31: every ranged field is 0 or empty at reset, but for the frame counter, which is at the top of the 4-step
sequence. -/
theorem resetMeetsTheInvariant : Obligations.ResetMeetsTheInvariant := by
  intro c
  exact {
    sq1 := SquareInv.reset c
    sq2 := SquareInv.reset c
    triLength := Nat.zero_le _
    frameTop := Int.le_refl 4
    frameBottom := fun _ => show (1 : Int) ≤ 4 by decide
    fifoLength := Nat.zero_le _
    fifoRange := fun _ hx => nomatch hx }

/-! ## What keeps the ranges of a square -/

/-- A length is in range when a length in range is at least as large. -/
theorem SquareInv.length_of_le {c : Config} {q : Square} (h : SquareInv c q) {l : BitVec 8}
    (hl : l.toNat ≤ q.length.toNat) : ∃ i, l.toNat ≤ (lengthEntry c i).toNat :=
  let ⟨i, hi⟩ := h.length
  ⟨i, hl.trans hi⟩

theorem sweepPeriodField_le (v : Byte) : (sweepPeriodField v).toNat ≤ 8 := by
  have hfield : (v.extractLsb' 4 3).toNat < 8 := (v.extractLsb' 4 3).isLt
  simp only [sweepPeriodField, BitVec.toNat_add, BitVec.toNat_setWidth, BitVec.ofNat_eq_ofNat, BitVec.toNat_ofNat]
  omega

section square
variable {c : Config} {q : Square} (h : SquareInv c q)
include h

/-- A control write reaches no ranged field (R121). -/
theorem SquareInv.squareControl (v : Byte) : SquareInv c (squareControl c v q) :=
  ⟨h.timer, h.timerCount, h.length, h.sweepPeriod⟩

theorem SquareInv.squareSweep (v : Byte) : SquareInv c (squareSweep v q) :=
  ⟨h.timer, h.timerCount, h.length, sweepPeriodField_le v⟩

/-- Both timer writes assemble an 11-bit timer, whatever the old one was (R123, R124). -/
theorem SquareInv.squareLow (v : Byte) : SquareInv c (squareLow v q) :=
  ⟨fun _ => Nat.le_of_lt_succ (timerLow _ v).isLt, h.timerCount, h.length, h.sweepPeriod⟩

theorem SquareInv.squareHigh (v : Byte) : SquareInv c (squareHigh c v q) :=
  ⟨fun _ => Nat.le_of_lt_succ (timerHigh _ v).isLt, h.timerCount, ⟨lengthField v, Nat.le_refl _⟩, h.sweepPeriod⟩

theorem SquareInv.disableSquare (on : Bool) : SquareInv c (disableSquare c on q) := by
  cases on with
  | true => exact h
  | false => exact ⟨h.timer, h.timerCount, h.length_of_le (Nat.zero_le _), h.sweepPeriod⟩

/-- A clock writes one ranged field, the divider: a reload leaves at most `(2047 + 1) * 2 - 1` (R163, R165). -/
theorem SquareInv.clock : SquareInv c (clock c q) := by
  by_cases hs : Silent c q
  · rw [clock_silent c q hs]
    exact ⟨h.timer, h.timerCount, h.length, h.sweepPeriod⟩
  · by_cases h0 : q.timerCount = 0
    · rw [clock_reload c q hs h0]
      have hreload : c.sweepOverflow ≠ .unbounded → (q.timer + 1) * 2 - 1 ≤ 4095 := fun ho => by
        have := h.timer ho
        omega
      exact ⟨h.timer, hreload, h.length, h.sweepPeriod⟩
    · rw [clock_count c q hs h0]
      exact ⟨h.timer, fun ho => (Nat.sub_le _ 1).trans (h.timerCount ho), h.length, h.sweepPeriod⟩

theorem SquareInv.clockIfPitched (enabled : Bool) : SquareInv c (clockIfPitched c enabled q) := by
  unfold Machine.clockIfPitched
  split
  · exact h.clock
  · exact h

end square

theorem tickLength_le (c : Config) (fc : Int) (q : Square) : (tickLength c fc q).toNat ≤ q.length.toNat := by
  unfold tickLength
  split <;> simp

theorem tickPeriod_le (fc : Int) (q : Square) : (tickPeriod fc q).toNat ≤ q.sweepPeriod.toNat := by
  unfold tickPeriod
  split <;> simp

/-- A tick counts the length and the countdown down (R212), and a sweep fits its target into 11 bits (R214). -/
theorem SquareInv.tickSquare {c : Config} {q : Square} (h : SquareInv c q) (fc : Int) :
    SquareInv c (tickSquare c fc q) := by
  rw [tickSquare_eq]
  refine ⟨fun ho => ?_, h.timerCount, h.length_of_le (tickLength_le c fc q), (tickPeriod_le fc q).trans h.sweepPeriod⟩
  dsimp only
  split
  · exact fitTimer_le c _ ho
  · exact h.timer ho

/-! ## What keeps the ranges of the triangle and of the frame counter -/

theorem triHigh_length_le (v : Byte) (r : Triangle) : (triHigh v r).length.toNat ≤ 31 := by
  have hfield : (lengthField v).toNat < 32 := (lengthField v).isLt
  simp only [triHigh, BitVec.toNat_setWidth]
  omega

theorem disableTriangle_length_le (c : Config) (on : Bool) (r : Triangle) :
    (disableTriangle c on r).length.toNat ≤ r.length.toNat := by
  cases on with
  | true => exact Nat.le_refl _
  | false => exact Nat.zero_le _

theorem triClock_length (enabled : Bool) (r : Triangle) : (triClock enabled r).length = r.length := by
  unfold triClock
  split <;> rfl

theorem one_le_frameModeNumber (m : FrameMode) : 1 ≤ frameModeNumber m := by
  cases m <;> decide

theorem nextFrameCounter_le (c : Config) {m : FrameMode} {fc : Int} (h : fc ≤ frameModeNumber m) :
    nextFrameCounter c m fc ≤ frameModeNumber m := by
  cases hw : c.frameWrap with
  | reload => rw [nextFrameCounter_reload c m fc hw]; split <;> omega
  | literal => rw [nextFrameCounter_literal c m fc hw]; omega

theorem one_le_nextFrameCounter {c : Config} (hw : c.frameWrap = .reload) (m : FrameMode) (fc : Int) :
    1 ≤ nextFrameCounter c m fc := by
  have := one_le_frameModeNumber m
  rw [nextFrameCounter_reload c m fc hw]
  split <;> omega

/-! ## What each update of the state must bring to keep the invariant -/

section updates
variable {s : State} (h : s.Inv)
include h

/-- The invariant reads the parameters and the block only. -/
theorem State.Inv.of_cfg_apu {t : State} (hcfg : t.cfg = s.cfg) (hapu : t.apu = s.apu) : t.Inv := by
  obtain ⟨cfg, apu, host, consumer, turns⟩ := t
  obtain rfl : cfg = s.cfg := hcfg
  obtain rfl : apu = s.apu := hapu
  exact { h with }

theorem State.Inv.withSq1 {q : Square} (hq : SquareInv s.cfg q) : (s.withSq1 q).Inv :=
  { h with sq1 := hq }

theorem State.Inv.withSq2 {q : Square} (hq : SquareInv s.cfg q) : (s.withSq2 q).Inv :=
  { h with sq2 := hq }

theorem State.Inv.withTri {r : Triangle} (hr : r.length.toNat ≤ 31) : (s.withTri r).Inv :=
  { h with triLength := hr }

theorem State.Inv.withEnables (a b c d e : Bool) : (s.withEnables a b c d e).Inv :=
  { h with }

theorem State.Inv.withFrameCounter {n : Int} (htop : n ≤ frameModeNumber s.apu.frameMode)
    (hbottom : s.cfg.frameWrap = .reload → 1 ≤ n) : (s.withFrameCounter n).Inv :=
  { h with frameTop := htop, frameBottom := hbottom }

/-- A frame mode alone may leave the counter above its top; with the counter restarted it does not (R133). -/
theorem State.Inv.restartSequence (m : FrameMode) :
    ((s.withFrameMode m).withFrameCounter (frameModeNumber m)).Inv :=
  { h with frameTop := Int.le_refl _, frameBottom := fun _ => one_le_frameModeNumber m }

theorem State.Inv.withFifo {l : List Sample} (hlength : l.length ≤ fifoDepth s.cfg)
    (hrange : ∀ x ∈ l, x.toNat ≤ 12671) : (s.withFifo l).Inv :=
  { h with fifoLength := hlength, fifoRange := hrange }

/-- A sample in range can go into a FIFO that is not full (R243, R244). -/
theorem State.Inv.enqueue {x : Sample} (hroom : s.apu.fifo.length ≠ fifoDepth s.cfg) (hx : x.toNat ≤ 12671) :
    (s.enqueue x).Inv := by
  refine h.withFifo ?_ fun y hy => ?_
  · have := h.fifoLength
    simp only [List.length_append, List.length_singleton]
    omega
  · obtain hy | hy := List.mem_append.1 hy
    · exact h.fifoRange y hy
    · exact List.mem_singleton.1 hy ▸ hx

theorem State.Inv.returnRead (v : Byte) : (s.returnRead v).Inv := h.of_cfg_apu rfl rfl

theorem State.Inv.holdHost (b : Bool) : (s.holdHost b).Inv := h.of_cfg_apu rfl rfl

theorem State.Inv.holdConsumer (b : Bool) : (s.holdConsumer b).Inv := h.of_cfg_apu rfl rfl

theorem State.Inv.deliver (x : Sample) : (s.deliver x).Inv := h.of_cfg_apu rfl rfl

theorem State.Inv.withTurns (ts : List Agent) : (s.withTurns ts).Inv := h.of_cfg_apu rfl rfl

theorem State.Inv.withCalls (a : Agent) (ws : List Word) : (s.withCalls a ws).Inv :=
  h.of_cfg_apu (State.withCalls_cfg s ws a) (State.withCalls_apu s ws a)

/-! ## Every transaction keeps the invariant -/

theorem State.Inv.next_execStepc : ∃ t, execStepc s = .next t ∧ t.Inv := by
  refine ⟨_, rfl, ((h.withSq1 (h.sq1.clockIfPitched _)).withSq2 (h.sq2.clockIfPitched _)).withTri ?_⟩
  split
  · rw [triClock_length]
    exact h.triLength
  · exact h.triLength

theorem State.Inv.next_execStepf : ∃ t, execStepf s = .next t ∧ t.Inv :=
  ⟨_, rfl, ((h.withSq1 (h.sq1.tickSquare _)).withSq2 (h.sq2.tickSquare _)).withFrameCounter
    (nextFrameCounter_le s.cfg h.frameTop) fun hw => one_le_nextFrameCounter hw _ _⟩

theorem State.Inv.next_execWrEnable (v : Byte) : ∃ t, execWrEnable v s = .next t ∧ t.Inv :=
  have henables := h.withEnables (enableField v 0) (enableField v 1) (enableField v 2) (enableField v 3) (enableField v 4)
  ⟨_, rfl, ((henables.withSq1 (h.sq1.disableSquare _)).withSq2 (h.sq2.disableSquare _)).withTri
    ((disableTriangle_length_le _ _ _).trans h.triLength)⟩

theorem State.Inv.next_execPush : ∃ t, execPush s = .next t ∧ t.Inv := by
  by_cases hf : s.apu.fifo.length = fifoDepth s.cfg
  · exact ⟨_, execPush_full s hf, h.holdHost true⟩
  · exact ⟨_, execPush_room s hf, (h.enqueue hf (mix_le _ _)).holdHost false⟩

/-- What a pop leaves in the FIFO was there before it. -/
theorem State.Inv.next_execPop : ∃ t, execPop s = .next t ∧ t.Inv := by
  cases hf : s.apu.fifo with
  | nil => exact ⟨_, execPop_empty s hf, h.holdConsumer true⟩
  | cons x rest =>
    have hlength : rest.length ≤ fifoDepth s.cfg := by
      have := hf ▸ h.fifoLength
      exact (Nat.le_succ _).trans this
    have hrange : ∀ y ∈ rest, y.toNat ≤ 12671 := fun y hy => h.fifoRange y (hf ▸ List.mem_cons_of_mem x hy)
    exact ⟨_, execPop_cons s x rest hf, ((h.withFifo hlength hrange).deliver x).holdConsumer false⟩

/-- From a state in range every transaction answers a next state in range. -/
theorem State.Inv.next_exec : ∀ i : Instr, ∃ t, exec i s = .next t ∧ t.Inv
  | .wrSq1Ctrl _ v => ⟨_, rfl, h.withSq1 (h.sq1.squareControl v)⟩
  | .wrSq1Sweep _ v => ⟨_, rfl, h.withSq1 (h.sq1.squareSweep v)⟩
  | .wrSq1Lo _ v => ⟨_, rfl, h.withSq1 (h.sq1.squareLow v)⟩
  | .wrSq1Hi _ v => ⟨_, rfl, h.withSq1 (h.sq1.squareHigh v)⟩
  | .wrSq2Ctrl _ v => ⟨_, rfl, h.withSq2 (h.sq2.squareControl v)⟩
  | .wrSq2Sweep _ v => ⟨_, rfl, h.withSq2 (h.sq2.squareSweep v)⟩
  | .wrSq2Lo _ v => ⟨_, rfl, h.withSq2 (h.sq2.squareLow v)⟩
  | .wrSq2Hi _ v => ⟨_, rfl, h.withSq2 (h.sq2.squareHigh v)⟩
  | .wrTriCtrl _ _ => ⟨_, rfl, h.withTri h.triLength⟩
  | .wrTriLo _ _ => ⟨_, rfl, h.withTri h.triLength⟩
  | .wrTriHi _ v => ⟨_, rfl, h.withTri (triHigh_length_le v _)⟩
  | .wrEnable _ v => h.next_execWrEnable v
  | .wrFrameMode _ v => ⟨_, rfl, h.restartSequence (frameModeField v)⟩
  | .wrUnmapped _ _ _ => ⟨_, rfl, h⟩
  | .rdStatus _ => ⟨_, rfl, h.returnRead _⟩
  | .rdZero _ _ => ⟨_, rfl, h.returnRead _⟩
  | .stepc => h.next_execStepc
  | .stepf => h.next_execStepf
  | .push => h.next_execPush
  | .pop => h.next_execPop

theorem State.Inv.of_exec {i : Instr} {t : State} (hexec : exec i s = .next t) : t.Inv := by
  obtain ⟨u, hu, hinv⟩ := h.next_exec i
  cases hexec.symm.trans hu
  exact hinv

end updates

/-- Settles O32: taking a turn or a call off the lists leaves the block as it is, and the transaction run from there keeps
the ranges. -/
theorem everyStepKeepsTheInvariant : Obligations.EveryStepKeepsTheInvariant := by
  intro s t hs hstep
  obtain ⟨-, rfl⟩ | ⟨a, ts, -, ⟨-, -, rfl⟩ | ⟨-, hexec⟩ | ⟨w, ws, i, -, -, -, -, hexec⟩⟩ := step_cases hstep
  · exact hs
  · exact hs.withTurns ts
  · exact (hs.withTurns ts).of_exec hexec
  · exact ((hs.withTurns ts).withCalls a ws).of_exec hexec

end Sys2Proof.Machine
end

section
/-! PROOFS. The register file (spec/20_memory.md R60 to R69): its tables, the address bits no access reads, repeated
writes, and the two byte registers of a timer. -/

namespace Sys2Proof

/-! ## High address bits (R60) -/

/-- The transaction under another high address byte. -/
def Instr.withAhi (a : Byte) : Instr → Instr
  | .wrSq1Ctrl _ v => .wrSq1Ctrl a v
  | .wrSq1Sweep _ v => .wrSq1Sweep a v
  | .wrSq1Lo _ v => .wrSq1Lo a v
  | .wrSq1Hi _ v => .wrSq1Hi a v
  | .wrSq2Ctrl _ v => .wrSq2Ctrl a v
  | .wrSq2Sweep _ v => .wrSq2Sweep a v
  | .wrSq2Lo _ v => .wrSq2Lo a v
  | .wrSq2Hi _ v => .wrSq2Hi a v
  | .wrTriCtrl _ v => .wrTriCtrl a v
  | .wrTriLo _ v => .wrTriLo a v
  | .wrTriHi _ v => .wrTriHi a v
  | .wrEnable _ v => .wrEnable a v
  | .wrFrameMode _ v => .wrFrameMode a v
  | .wrUnmapped _ off v => .wrUnmapped a off v
  | .rdStatus _ => .rdStatus a
  | .rdZero _ off => .rdZero a off
  | .stepc => .stepc
  | .stepf => .stepf
  | .push => .push
  | .pop => .pop

theorem withAhi_decodeWrite (a a' o d : Byte) : (decodeWrite a o d).withAhi a' = decodeWrite a' o d := by
  simp only [decodeWrite, apply_ite (Instr.withAhi a')]
  rfl

/-- Fields that differ only in the high address byte decode, where both decode, to transactions that differ only in it. -/
theorem withAhi_of_decodeFields {k a a' o d : Byte} {i i' : Instr} (h : decodeFields k a o d = .ok i)
    (h' : decodeFields k a' o d = .ok i') : i.withAhi a' = i' := by
  rw [decodeFields_ok_iff] at h
  obtain ⟨rfl, rfl⟩ | ⟨rfl, rfl, rfl⟩ | ⟨rfl, rfl, rfl, hbare⟩ := h
  · cases h'
    exact withAhi_decodeWrite a a' o d
  · rw [decodeFields_rd] at h'
    obtain ⟨-, rfl⟩ := decodeRead_ok_iff.1 h'
    exact apply_ite (Instr.withAhi a') ..
  · obtain ⟨rfl, rfl⟩ | ⟨rfl, rfl⟩ | ⟨rfl, rfl⟩ | ⟨rfl, rfl⟩ := hbare
    all_goals
      obtain ⟨-, rfl⟩ : a' = 0 ∧ _ := by simpa [decodeFields_ok_iff] using h'
      rfl

namespace Machine

/-- No meaning reads the high address byte. -/
theorem exec_withAhi (a : Byte) (i : Instr) (s : State) : exec (i.withAhi a) s = exec i s := by
  cases i <;> rfl

/-- Settles O23: the two words decode to one transaction under two high address bytes, and `exec` reads neither. -/
theorem highAddressBitsAreIgnored : Obligations.HighAddressBitsAreIgnored := by
  intro w w' i i' s h h' hkind hoff hdata
  have hfields : decodeFields (Word.kind w) (Word.ahi w') (Word.off w) (Word.data w) = .ok i' := by
    rw [hkind, hoff, hdata]
    exact h'
  rw [← withAhi_of_decodeFields h hfields, exec_withAhi]

/-! ## The two bytes of a timer (R63) -/

section timer
variable (x : BitVec 11) (v lo hi : Byte)

/-- A low write forgets the low byte it finds. -/
theorem timerLow_timerLow : timerLow (timerLow x v) lo = timerLow x lo := by
  simp only [timerLow, BitVec.extractLsb'_append_eq_left]

/-- A high write forgets the high bits it finds. -/
theorem timerHigh_timerHigh : timerHigh (timerHigh x v) hi = timerHigh x hi := by
  simp only [timerHigh, BitVec.extractLsb'_append_eq_right]

/-- A low write after a high write: all eleven bits are new. -/
theorem timerLow_timerHigh : timerLow (timerHigh x hi) lo = hi.extractLsb' 0 3 ++ lo := by
  simp only [timerLow, timerHigh, BitVec.extractLsb'_append_eq_left]

/-- A high write after a low write: the same eleven bits. -/
theorem timerHigh_timerLow : timerHigh (timerLow x lo) hi = hi.extractLsb' 0 3 ++ lo := by
  simp only [timerLow, timerHigh, BitVec.extractLsb'_append_eq_right]

theorem timerBytes_toNat : (hi.extractLsb' 0 3 ++ lo).toNat = hi.toNat % 8 * 256 + lo.toNat := by
  simp only [BitVec.toNat_append, BitVec.extractLsb'_toNat, Nat.shiftRight_zero]
  rw [← Nat.shiftLeft_add_eq_or_of_lt lo.isLt, Nat.shiftLeft_eq]

end timer

section channels
variable (c : Config) (q : Square) (r : Triangle) (lo hi : Byte)

theorem squareLow_squareHigh : squareLow lo (squareHigh c hi q) = squareHigh c hi (squareLow lo q) := by
  simp [squareLow, squareHigh, timerLow_timerHigh, timerHigh_timerLow]

theorem squareHigh_squareLow_timer : (squareHigh c hi (squareLow lo q)).timer = hi.toNat % 8 * 256 + lo.toNat := by
  simp [squareLow, squareHigh, timerHigh_timerLow, ← timerBytes_toNat]

theorem triLow_triHigh : triLow lo (triHigh hi r) = triHigh hi (triLow lo r) := by
  simp only [triLow, triHigh, timerLow_timerHigh, timerHigh_timerLow]

theorem triHigh_triLow_timer : (triHigh hi (triLow lo r)).timer.toNat = hi.toNat % 8 * 256 + lo.toNat := by
  simp only [triLow, triHigh, timerHigh_timerLow, timerBytes_toNat]

end channels

/-- Settles O41: on each channel the two register functions commute, and together they replace the whole timer. -/
theorem timerBytesCanBeWrittenInEitherOrder : Obligations.TimerBytesCanBeWrittenInEitherOrder := by
  intro ahi ahi' lo hi s
  refine ⟨⟨s.withSq1 (squareHigh s.cfg hi (squareLow lo s.apu.sq1)), rfl, ?_, squareHigh_squareLow_timer ..⟩,
    ⟨s.withSq2 (squareHigh s.cfg hi (squareLow lo s.apu.sq2)), rfl, ?_, squareHigh_squareLow_timer ..⟩,
    ⟨s.withTri (triHigh hi (triLow lo s.apu.tri)), rfl, ?_, triHigh_triLow_timer ..⟩⟩
  · exact congrArg (fun q => (.next (s.withSq1 q) : Result)) (squareLow_squareHigh ..)
  · exact congrArg (fun q => (.next (s.withSq2 q) : Result)) (squareLow_squareHigh ..)
  · exact congrArg (fun r => (.next (s.withTri r) : Result)) (triLow_triHigh ..)

/-! ## Repeated writes (R65) -/

section repeated
variable (c : Config) (v : Byte) (on : Bool) (q : Square) (r : Triangle)

theorem squareLow_squareLow : squareLow v (squareLow v q) = squareLow v q := by
  simp [squareLow, timerLow_timerLow]

theorem squareHigh_squareHigh : squareHigh c v (squareHigh c v q) = squareHigh c v q := by
  simp [squareHigh, timerHigh_timerHigh]

theorem triLow_triLow : triLow v (triLow v r) = triLow v r := by
  simp only [triLow, timerLow_timerLow]

theorem triHigh_triHigh : triHigh v (triHigh v r) = triHigh v r := by
  simp only [triHigh, timerHigh_timerHigh]

theorem disableSquare_disableSquare : disableSquare c on (disableSquare c on q) = disableSquare c on q := by
  cases on with
  | true => rfl
  | false => cases h : c.disableClearsSample <;> simp [disableSquare, h]

theorem disableTriangle_disableTriangle :
    disableTriangle c on (disableTriangle c on r) = disableTriangle c on r := by
  cases on with
  | true => rfl
  | false => cases h : c.disableClearsSample <;> simp [disableTriangle, h]

end repeated

/-- The lengths and samples a second channel-enable write would clear are cleared already (R132). -/
theorem execWrEnable_repeat {v : Byte} {s t : State} (h : execWrEnable v s = .next t) :
    execWrEnable v t = .next t := by
  cases h
  simp only [execWrEnable, State.withTri_cfg, State.withSq2_cfg, State.withSq1_cfg, State.withEnables_cfg,
    State.withTri_apu_sq1, State.withSq2_apu_sq1, State.withSq1_apu_sq1, disableSquare_disableSquare,
    State.withTri_apu_sq2, State.withSq2_apu_sq2, State.withTri_apu_tri, disableTriangle_disableTriangle]
  rfl

/-- Settles O40: a write replaces fields by values that depend on the byte, on the parameters and on fields the write
leaves as they are. -/
theorem registerWritesAreIdempotent : Obligations.RegisterWritesAreIdempotent := by
  intro i s t hkind h
  cases i with
  | wrSq1Lo _ v => cases h; exact congrArg (fun q => (.next (s.withSq1 q) : Result)) (squareLow_squareLow ..)
  | wrSq1Hi _ v => cases h; exact congrArg (fun q => (.next (s.withSq1 q) : Result)) (squareHigh_squareHigh ..)
  | wrSq2Lo _ v => cases h; exact congrArg (fun q => (.next (s.withSq2 q) : Result)) (squareLow_squareLow ..)
  | wrSq2Hi _ v => cases h; exact congrArg (fun q => (.next (s.withSq2 q) : Result)) (squareHigh_squareHigh ..)
  | wrTriLo _ v => cases h; exact congrArg (fun r => (.next (s.withTri r) : Result)) (triLow_triLow ..)
  | wrTriHi _ v => cases h; exact congrArg (fun r => (.next (s.withTri r) : Result)) (triHigh_triHigh ..)
  | wrEnable _ v => exact execWrEnable_repeat h
  | wrSq1Ctrl | wrSq1Sweep | wrSq2Ctrl | wrSq2Sweep | wrTriCtrl | wrFrameMode | wrUnmapped => cases h; rfl
  | rdStatus | rdZero | stepc | stepf | push | pop => simp [encode] at hkind

/-! ## The tables (R66 to R69) -/

theorem lengthEntry_of_toNat_eq {i : BitVec 5} (c : Config) (h : i.toNat = 31) : lengthEntry c i = 30 := by
  obtain rfl : i = 31 := BitVec.eq_of_toNat_eq h
  exact lengthEntry_last c

/-- The triangle's table rises from 8, falls through both halves to 0 and rises again (R69). -/
theorem triEntry_toNat : ∀ i : BitVec 5, (triEntry i).toNat =
    if i.toNat ≤ 7 then 8 + i.toNat else if i.toNat ≤ 23 then 23 - i.toNat else i.toNat - 24 := by
  decide

/-- Where each default duty row is 1 (R67). -/
theorem dutyBit_default : ∀ k : BitVec 3,
    (dutyBit defaultConfig 0 k = 1 ↔ k.toNat = 1) ∧
    (dutyBit defaultConfig 1 k = 1 ↔ k.toNat = 1 ∨ k.toNat = 2) ∧
    (dutyBit defaultConfig 2 k = 1 ↔ 1 ≤ k.toNat ∧ k.toNat ≤ 4) ∧
    (dutyBit defaultConfig 3 k = 1 ↔ k.toNat = 0 ∨ 3 ≤ k.toNat) := by
  decide

/-- The default length table with its fixed last entry (R68). -/
theorem lengthEntry_default :
    (List.range 32).map (fun n => (lengthEntry defaultConfig (BitVec.ofNat 5 n)).toNat) =
      [10, 254, 20, 2, 40, 4, 80, 6, 160, 8, 60, 10, 14, 12, 26, 14,
       12, 16, 24, 18, 48, 20, 96, 22, 192, 24, 72, 26, 16, 28, 32, 30] := by
  decide

/-- Settles O30: the tables are small closed facts, and every other default is read off `defaultConfig`. -/
theorem tablesAndDefaultsHoldTheListedValues : Obligations.TablesAndDefaultsHoldTheListedValues :=
  ⟨fun c _ => lengthEntry_of_toNat_eq c, triEntry_toNat, dutyBit_default, lengthEntry_default,
    fun _ => rfl, rfl, rfl, rfl, rfl, rfl, rfl, rfl, fun _ => Nat.le_add_left 1 _⟩

end Machine

end Sys2Proof
end

section
/-! PROOFS. The sample stream keeps its order and loses nothing (spec/20_memory.md R73, spec/44_mixer_output.md R248). -/

namespace Sys2Proof.Machine

/-! ## What one stretch of a run does to the stream -/

/-- From `s` to `t` the samples `popped` left the head of the FIFO for the consumer, and the samples `pushed` joined at
its tail. -/
structure StreamMoved (s t : State) (popped pushed : List Sample) : Prop where
  received : t.consumer.received = s.consumer.received ++ popped
  fifo : popped ++ t.apu.fifo = s.apu.fifo ++ pushed

/-- Two stretches, one after the other. -/
theorem StreamMoved.trans {s t u : State} {xs xs' ys ys' : List Sample} (h : StreamMoved s t xs ys)
    (h' : StreamMoved t u xs' ys') : StreamMoved s u (xs ++ xs') (ys ++ ys') where
  received := by rw [h'.received, h.received, List.append_assoc]
  fifo := by rw [List.append_assoc, h'.fifo, ← List.append_assoc, h.fifo, List.append_assoc]

/-- What was received and what waits grow together by what was pushed: no sample is lost or moved on the way. -/
theorem StreamMoved.conserved {s t : State} {popped pushed : List Sample} (h : StreamMoved s t popped pushed) :
    t.consumer.received ++ t.apu.fifo = s.consumer.received ++ s.apu.fifo ++ pushed := by
  rw [h.received, List.append_assoc, h.fifo, List.append_assoc]

/-- A stretch that touches neither end of the stream. -/
theorem StreamMoved.of_eq {s t : State} (hreceived : t.consumer.received = s.consumer.received)
    (hfifo : t.apu.fifo = s.apu.fifo) : StreamMoved s t [] [] where
  received := by simpa using hreceived
  fifo := by simpa using hfifo

/-! ## What one transaction does to the stream -/

theorem execPush_moves {s t : State} (h : execPush s = .next t) :
    StreamMoved s t [] (if s.apu.fifo.length = fifoDepth s.cfg then [] else [mix s.apu.sq1.sample s.apu.sq2.sample]) := by
  by_cases hf : s.apu.fifo.length = fifoDepth s.cfg
  · rw [execPush_full s hf] at h
    cases h
    rw [if_pos hf]
    exact .of_eq rfl rfl
  · rw [execPush_room s hf] at h
    cases h
    rw [if_neg hf]
    exact ⟨(List.append_nil _).symm, rfl⟩

theorem execPop_moves {s t : State} (h : execPop s = .next t) : StreamMoved s t (s.apu.fifo.take 1) [] := by
  cases hf : s.apu.fifo with
  | nil =>
    rw [execPop_empty s hf] at h
    cases h
    exact .of_eq rfl rfl
  | cons x rest =>
    rw [execPop_cons s x rest hf] at h
    cases h
    exact ⟨rfl, by simp [hf]⟩

/-- Every transaction but a push and a pop leaves both ends of the stream as they are. -/
theorem exec_leaves_stream {i : Instr} {s t : State} (hpush : i ≠ .push) (hpop : i ≠ .pop)
    (h : exec i s = .next t) : StreamMoved s t [] [] := by
  cases i with
  | push => exact absurd rfl hpush
  | pop => exact absurd rfl hpop
  | _ => cases h; exact .of_eq rfl rfl

/-! ## What one step does to the stream -/

/-- A step that fetches no transaction takes the turn off, if there is one. -/
theorem step_fetched_idle {s : State} (h : s.fetched = .idle) : step s = .next (s.withTurns s.turns.tail) := by
  unfold State.fetched at h
  unfold step
  cases ht : s.turns with
  | nil =>
    have hself : s.withTurns [] = s := by rw [← ht]; rfl
    rw [List.tail_nil, hself]
  | cons a ts =>
    rw [ht] at h
    dsimp only at h ⊢
    rw [h, List.tail_cons]

/-- A step that fetches a refusal answers it. -/
theorem step_fetched_refuse {s : State} {r : Refusal} (h : s.fetched = .refuse r) : step s = .refused r := by
  unfold State.fetched at h
  unfold step
  cases ht : s.turns with
  | nil => rw [ht] at h; cases h
  | cons a ts =>
    rw [ht] at h
    dsimp only at h ⊢
    rw [h]

/-- Fetching takes a turn and a word off their lists, and nothing else. -/
theorem fetched_run_moves {s u : State} {i : Instr} (h : s.fetched = .run i u) : StreamMoved s u [] [] := by
  unfold State.fetched fetch at h
  split at h
  · cases h
  · next a ts _ =>
    split at h
    · cases h
      exact .of_eq rfl rfl
    · obtain ⟨w, ws, -, -, -, rfl⟩ := presentCall_run h
      exact .of_eq (by simp) (by simp)

/-- One step moves the samples that `poppedNext` and `pushedNext` foretell. -/
theorem step_moves {s t : State} (h : step s = .next t) : StreamMoved s t s.poppedNext s.pushedNext := by
  unfold State.poppedNext State.pushedNext
  cases hf : s.fetched with
  | idle =>
    cases (step_fetched_idle hf).symm.trans h
    exact .of_eq rfl rfl
  | refuse r => cases (step_fetched_refuse hf).symm.trans h
  | run i u =>
    rw [step_fetched_run hf] at h
    have hfetch := fetched_run_moves hf
    by_cases hpush : i = .push
    · subst hpush
      exact hfetch.trans (execPush_moves h)
    by_cases hpop : i = .pop
    · subst hpop
      exact hfetch.trans (execPop_moves h)
    simpa [hpush, hpop] using hfetch.trans (exec_leaves_stream hpush hpop h)

/-! ## Runs -/

/-- A run moves what its steps move, in their order. -/
theorem run_moves {n : Nat} {s t : State} (h : core.run n s = .next t) :
    StreamMoved s t (collect State.poppedNext n s) (collect State.pushedNext n s) := by
  induction n generalizing s with
  | zero =>
    cases h
    exact .of_eq rfl rfl
  | succ n ih =>
    obtain ⟨u, hstep, hrun⟩ := run_succ_inv h
    rw [collect_succ_next hstep, collect_succ_next hstep]
    exact (step_moves hstep).trans (ih hrun)

/-- What contributes at most one sample a step contributes at most `n` in `n` steps. -/
theorem collect_length_le {f : State → List Sample} (hf : ∀ s, (f s).length ≤ 1) (n : Nat) (s : State) :
    (collect f n s).length ≤ n := by
  induction n generalizing s with
  | zero => exact Nat.le_refl 0
  | succ n ih =>
    have hfirst := hf s
    cases hstep : step s with
    | next t =>
      have hrest := ih t
      rw [collect_succ_next hstep, List.length_append]
      omega
    | fault r => cases r
    | refused r =>
      simp only [collect, hstep, List.append_nil]
      omega

/-- Settles O34: by induction on the steps, a run moves what its steps foretell, and such a move conserves the stream. -/
theorem streamKeepsOrderAndLosesNothing : Obligations.StreamKeepsOrderAndLosesNothing := by
  intro n s t h
  have hmoves := run_moves h
  exact ⟨hmoves.conserved, hmoves.received, collect_length_le pushedNext_length n s,
    collect_length_le poppedNext_length n s⟩

end Sys2Proof.Machine
end

section
/-! PROOFS. Decoding and encoding are inverse (spec/30_encoding.md R91 to R93, R106, R109), and which words a step
refuses (R107, spec/60_exceptions.md R273). -/

namespace Sys2Proof

/-! ## Well-formed operands (R106) -/

theorem wellFormed_wrUnmapped_iff {a o d : Byte} : (Instr.wrUnmapped a o d).WellFormed ↔ o ∉ mappedOffsets := by
  simp [Instr.WellFormed, Instr.wellFormed]

theorem wellFormed_rdZero_iff {a o : Byte} : (Instr.rdZero a o).WellFormed ↔ o ≠ statusOffset := by
  simp [Instr.WellFormed, Instr.wellFormed]

/-! ## Decoding what was encoded -/

/-- The default row of the writes takes every offset that no register has (R106). -/
theorem decodeWrite_unmapped {a o d : Byte} (h : o ∉ mappedOffsets) : decodeWrite a o d = .wrUnmapped a o d := by
  apply decodeWrite_elim (P := (· = .wrUnmapped a o d))
  case hu => exact fun _ => rfl
  all_goals
    rintro rfl
    exact absurd (by decide) h

/-- Settles O19: the fields of an encoded word are read back, a specific row decodes its own offset, and a default row
decodes an offset that no specific row has. -/
theorem decodeOfEncodeIsIdentity : Obligations.DecodeOfEncodeIsIdentity := by
  intro i hwf
  cases i with
  | wrUnmapped a o d =>
    rw [encode, decode_word, decodeFields_wr, decodeWrite_unmapped (wellFormed_wrUnmapped_iff.1 hwf)]
  | rdZero a o =>
    rw [encode, decode_word, decodeFields_rd, decodeRead_ok_iff]
    exact ⟨rfl, (if_neg (wellFormed_rdZero_iff.1 hwf)).symm⟩
  | _ => exact decode_word ..

/-! ## Encoding what was decoded -/

/-- Each register's row encodes to the word it was decoded from. -/
theorem encode_decodeWrite (a o d : Byte) :
    encode (decodeWrite a o d) = word 0x01 a o d ∧ (decodeWrite a o d).WellFormed := by
  apply decodeWrite_elim (P := fun i => encode i = word 0x01 a o d ∧ i.WellFormed)
  case hu => exact fun h => ⟨rfl, wellFormed_wrUnmapped_iff.2 h⟩
  all_goals
    rintro rfl
    exact ⟨rfl, rfl⟩

theorem encode_of_decodeFields {k a o d : Byte} {i : Instr} (h : decodeFields k a o d = .ok i) :
    encode i = word k a o d ∧ i.WellFormed := by
  rw [decodeFields_ok_iff] at h
  obtain ⟨rfl, rfl⟩ | ⟨rfl, rfl, rfl⟩ | ⟨rfl, rfl, rfl, hbare⟩ := h
  · exact encode_decodeWrite a o d
  · split
    · next ho => exact ⟨by rw [ho]; rfl, rfl⟩
    · next ho => exact ⟨rfl, wellFormed_rdZero_iff.2 ho⟩
  · obtain ⟨rfl, rfl⟩ | ⟨rfl, rfl⟩ | ⟨rfl, rfl⟩ | ⟨rfl, rfl⟩ := hbare
    all_goals exact ⟨rfl, rfl⟩

/-- Settles O20: the word encoded from the four fields of `w` is `w`. -/
theorem encodeOfDecodeIsIdentity : Obligations.EncodeOfDecodeIsIdentity := by
  intro w i h
  obtain ⟨hencode, hwf⟩ := encode_of_decodeFields h
  exact ⟨hencode.trans (word_fields w), hwf⟩

/-! ## Which words decode (R92, R93) -/

/-- Settles O21: `decodeFields_ok_iff` gives each listed kind the one transaction it decodes to; without the transaction
it is the listed condition, up to the order of its parts. -/
theorem decodableWordsAreTheListedKinds : Obligations.DecodableWordsAreTheListedKinds := by
  intro w
  simp only [decode, decodeFields_ok_iff, exists_or, exists_and_left, exists_eq, and_true]
  tauto

/-- Settles O22: each word is closed, so the decoder evaluates on it. -/
theorem writtenOutWordsDecode : Obligations.WrittenOutWordsDecode :=
  ⟨rfl, rfl, rfl, rfl, rfl, rfl, rfl, rfl, rfl, rfl, rfl, rfl, rfl, rfl, rfl, rfl⟩

namespace Machine

/-! ## What a step refuses (R107) -/

/-- Only push and pop branch on their next state, and both branches answer one (60_exceptions.md R270). -/
theorem exec_answers_next (i : Instr) (s : State) : ∃ t, exec i s = .next t := by
  cases i with
  | push =>
    by_cases hf : s.apu.fifo.length = fifoDepth s.cfg
    · exact ⟨_, execPush_full s hf⟩
    · exact ⟨_, execPush_room s hf⟩
  | pop =>
    cases hf : s.apu.fifo with
    | nil => exact ⟨_, execPop_empty s hf⟩
    | cons x rest => exact ⟨_, execPop_cons s x rest hf⟩
  | _ => exact ⟨_, rfl⟩

/-- Why the next call of an agent can be refused. -/
theorem presentCall_refuse {a : Agent} {s : State} {r : Refusal} (h : presentCall a s = .refuse r) :
    ∃ w ws, s.callsOf a = w :: ws ∧
      ((∃ why, decode w = .error why ∧ r = .invalidWord w why) ∨
       (∃ i, decode w = .ok i ∧ agentOf i ≠ a ∧ r = .wrongAgent a i)) := by
  unfold presentCall at h
  split at h
  · cases h
  · next w ws hcalls =>
    refine ⟨w, ws, hcalls, ?_⟩
    split at h
    · next why hdecode => cases h; exact .inl ⟨why, hdecode, rfl⟩
    · next i hdecode =>
      split at h
      · cases h
      · next hagent => cases h; exact .inr ⟨i, hdecode, hagent, rfl⟩

/-- A refusal is fetched on a turn of an agent that is not held, from its next call. -/
theorem fetched_refuse {s : State} {r : Refusal} (h : s.fetched = .refuse r) :
    ∃ a ts, s.turns = a :: ts ∧ s.isHeld a = false ∧ presentCall a (s.withTurns ts) = .refuse r := by
  unfold State.fetched fetch at h
  split at h
  · cases h
  · next a ts hturns =>
    split at h
    · cases h
    · next hheld => exact ⟨a, ts, hturns, by simpa using hheld, h⟩

/-- A step answers a refusal only where it fetches one. -/
theorem fetched_of_step_refused {s : State} {r : Refusal} (h : step s = .refused r) : s.fetched = .refuse r := by
  cases hfetched : s.fetched with
  | idle => cases (step_fetched_idle hfetched).symm.trans h
  | run i u =>
    obtain ⟨t, hnext⟩ := exec_answers_next i u
    cases ((step_fetched_run hfetched).trans hnext).symm.trans h
  | refuse r' =>
    cases (step_fetched_refuse hfetched).symm.trans h
    rfl

/-- Settles O28: no transaction is refused, so a refused step fetched the refusal from the agent's next call. -/
theorem stepIsRefusedOnlyForBadWords : Obligations.StepIsRefusedOnlyForBadWords := by
  intro s r h
  obtain ⟨a, ts, hturns, hheld, hcall⟩ := fetched_refuse (fetched_of_step_refused h)
  obtain ⟨w, ws, hcalls, hwhy⟩ := presentCall_refuse hcall
  exact ⟨a, ts, w, ws, hturns, hheld, by simpa using hcalls, hwhy⟩

/-! ## The placed word -/

theorem presenterOf_encode : ∀ i : Instr, presenterOf (encode i) = agentOf i
  | .wrSq1Ctrl ahi v => Laws.PresentedBy.wrSq1Ctrl ahi v
  | .wrSq1Sweep ahi v => Laws.PresentedBy.wrSq1Sweep ahi v
  | .wrSq1Lo ahi v => Laws.PresentedBy.wrSq1Lo ahi v
  | .wrSq1Hi ahi v => Laws.PresentedBy.wrSq1Hi ahi v
  | .wrSq2Ctrl ahi v => Laws.PresentedBy.wrSq2Ctrl ahi v
  | .wrSq2Sweep ahi v => Laws.PresentedBy.wrSq2Sweep ahi v
  | .wrSq2Lo ahi v => Laws.PresentedBy.wrSq2Lo ahi v
  | .wrSq2Hi ahi v => Laws.PresentedBy.wrSq2Hi ahi v
  | .wrTriCtrl ahi v => Laws.PresentedBy.wrTriCtrl ahi v
  | .wrTriLo ahi v => Laws.PresentedBy.wrTriLo ahi v
  | .wrTriHi ahi v => Laws.PresentedBy.wrTriHi ahi v
  | .wrEnable ahi v => Laws.PresentedBy.wrEnable ahi v
  | .wrFrameMode ahi v => Laws.PresentedBy.wrFrameMode ahi v
  | .wrUnmapped ahi off v => Laws.PresentedBy.wrUnmapped ahi off v
  | .rdStatus ahi => Laws.PresentedBy.rdStatus ahi
  | .rdZero ahi off => Laws.PresentedBy.rdZero ahi off
  | .stepc => Laws.PresentedBy.stepc
  | .stepf => Laws.PresentedBy.stepf
  | .push => Laws.PresentedBy.push
  | .pop => Laws.PresentedBy.pop

/-- The agent that presents a word is the one that makes the transaction it spells. -/
theorem presenterOf_eq_agentOf {w : Word} {i : Instr} (h : decode w = .ok i) : presenterOf w = agentOf i := by
  rw [← presenterOf_encode i, (encodeOfDecodeIsIdentity w i h).1]

section call
variable {s : State} {a : Agent} {ts : List Agent} {w : Word} {ws : List Word}

/-- On its turn an agent that is not held presents its next call. -/
theorem fetched_of_not_held (hturns : s.turns = a :: ts) (hheld : s.isHeld a = false) :
    s.fetched = presentCall a (s.withTurns ts) := by
  simp [State.fetched, fetch, hturns, hheld]

theorem fetched_of_call {i : Instr} (hturns : s.turns = a :: ts) (hheld : s.isHeld a = false)
    (hcalls : s.callsOf a = w :: ws) (hdecode : decode w = .ok i) (hagent : agentOf i = a) :
    s.fetched = .run i ((s.withTurns ts).withCalls a ws) := by
  simp [fetched_of_not_held hturns hheld, presentCall, hcalls, hdecode, hagent]

theorem fetched_of_invalid_call {why : Reject} (hturns : s.turns = a :: ts) (hheld : s.isHeld a = false)
    (hcalls : s.callsOf a = w :: ws) (hdecode : decode w = .error why) :
    s.fetched = .refuse (.invalidWord w why) := by
  simp [fetched_of_not_held hturns hheld, presentCall, hcalls, hdecode]

end call

section placed
variable (s : State) (w : Word)

@[simp] theorem placeCall_turns : (s.placeCall w).turns = presenterOf w :: s.turns := rfl

@[simp] theorem placeCall_isHeld : (s.placeCall w).isHeld (presenterOf w) = false := by
  simp [State.placeCall]

@[simp] theorem placeCall_callsOf :
    (s.placeCall w).callsOf (presenterOf w) = w :: s.callsOf (presenterOf w) := by
  unfold State.placeCall
  cases presenterOf w <;> rfl

/-- With its turn and its word taken off again, what placing a word leaves is an agent that is not held. -/
theorem placeCall_taken :
    ((s.placeCall w).withTurns s.turns).withCalls (presenterOf w) (s.callsOf (presenterOf w)) =
      s.withHeld (presenterOf w) false := by
  unfold State.placeCall
  cases presenterOf w <;> rfl

end placed

theorem step_placeCall_of_decode {s : State} {w : Word} {i : Instr} (h : decode w = .ok i) :
    step (s.placeCall w) = exec i (s.withHeld (agentOf i) false) := by
  have hagent := presenterOf_eq_agentOf h
  rw [← hagent, ← placeCall_taken]
  exact step_fetched_run
    (fetched_of_call (placeCall_turns s w) (placeCall_isHeld s w) (placeCall_callsOf s w) h hagent.symm)

theorem step_placeCall_of_invalid {s : State} {w : Word} {why : Reject} (h : decode w = .error why) :
    step (s.placeCall w) = .refused (.invalidWord w why) :=
  step_fetched_refuse
    (fetched_of_invalid_call (placeCall_turns s w) (placeCall_isHeld s w) (placeCall_callsOf s w) h)

theorem decode_of_decodeTableWord {nbits w : Nat} {i : Instr} (h : decodeTableWord nbits w = some i) :
    decode (tableWord nbits w) = .ok i := by
  unfold decodeTableWord at h
  cases hdecode : decode (tableWord nbits w) with
  | error why => rw [hdecode] at h; cases h
  | ok j => rw [hdecode] at h; cases h; rfl

/-- Settles O26: the placed word is the next call of the agent whose turn comes next, which is not held. -/
theorem stepRunsThePlacedWord : Obligations.StepRunsThePlacedWord := by
  intro s nbits w
  exact ⟨fun _ h => step_placeCall_of_decode (decode_of_decodeTableWord h), fun _ h => step_placeCall_of_invalid h⟩

end Machine

end Sys2Proof
end

section
/-! PROOFS. The register decoder (spec/40_register_decoder.md): what each write and each read leaves (R121 to R137), and
that the envelope fold cannot be observed (R125). -/

namespace Sys2Proof.Machine

/-! ## Two runs: from the transactions to the steps -/

/-- Related states go on to related states. -/
theorem AgreeUpTo.next {R : State → State → Prop} {s t : State} (h : R s t) : AgreeUpTo R (.next s) (.next t) := h

section turn
variable {s : State} {a : Agent} {ts : List Agent}

/-- A held agent's turn makes its call again (44_mixer_output.md R244, R246). -/
theorem fetched_of_held (hturns : s.turns = a :: ts) (hheld : s.isHeld a = true) :
    s.fetched = .run (heldCall a) (s.withTurns ts) := by
  simp [State.fetched, fetch, hturns, hheld]

theorem fetched_of_no_call (hturns : s.turns = a :: ts) (hheld : s.isHeld a = false) (hcalls : s.callsOf a = []) :
    s.fetched = .idle := by
  simp [fetched_of_not_held hturns hheld, presentCall, hcalls]

theorem fetched_of_wrong_agent {w : Word} {ws : List Word} {i : Instr} (hturns : s.turns = a :: ts)
    (hheld : s.isHeld a = false) (hcalls : s.callsOf a = w :: ws) (hdecode : decode w = .ok i)
    (hagent : agentOf i ≠ a) :
    s.fetched = .refuse (.wrongAgent a i) := by
  simp [fetched_of_not_held hturns hheld, presentCall, hcalls, hdecode, hagent]

/-- With no turn left a step stays (70_reset_and_hazards.md R290). -/
theorem step_of_no_turn (hturns : s.turns = []) : step s = .next s := by
  simp [step, hturns]

end turn

/-- A relation between two machines whose agents are alike that every transaction keeps. -/
structure KeptByTransactions (R : State → State → Prop) : Prop where
  turns {s t : State} : R s t → t.turns = s.turns
  host {s t : State} : R s t → t.host = s.host
  consumer {s t : State} : R s t → t.consumer = s.consumer
  withTurns {s t : State} (ts : List Agent) : R s t → R (s.withTurns ts) (t.withTurns ts)
  withCalls {s t : State} (a : Agent) (ws : List Word) : R s t → R (s.withCalls a ws) (t.withCalls a ws)
  exec {s t : State} (i : Instr) : R s t → AgreeUpTo R (exec i s) (exec i t)

section twoRuns
variable {R : State → State → Prop} (hR : KeptByTransactions R) {s t : State} (h : R s t)
include hR h

theorem KeptByTransactions.isHeld (a : Agent) : t.isHeld a = s.isHeld a := by
  cases a with
  | host => exact congrArg HostSide.held (hR.host h)
  | consumer => exact congrArg ConsumerSide.held (hR.consumer h)

theorem KeptByTransactions.callsOf (a : Agent) : t.callsOf a = s.callsOf a := by
  cases a with
  | host => exact congrArg HostSide.calls (hR.host h)
  | consumer => exact congrArg ConsumerSide.calls (hR.consumer h)

/-- What a turn comes to is read off the agents, so both machines fetch alike, and each thing fetched keeps the
relation. -/
theorem KeptByTransactions.step : AgreeUpTo R (step s) (step t) := by
  have hturns' := hR.turns h
  cases hturns : s.turns with
  | nil =>
    rw [step_of_no_turn hturns, step_of_no_turn (hturns'.trans hturns)]
    exact .next h
  | cons a ts =>
    replace hturns' := hturns'.trans hturns
    have htaken := hR.withTurns ts h
    have hheld' := hR.isHeld h a
    cases hheld : s.isHeld a with
    | true =>
      rw [step_fetched_run (fetched_of_held hturns hheld),
        step_fetched_run (fetched_of_held hturns' (hheld'.trans hheld))]
      exact hR.exec _ htaken
    | false =>
      replace hheld' := hheld'.trans hheld
      have hcalls' := hR.callsOf h a
      cases hcalls : s.callsOf a with
      | nil =>
        rw [step_fetched_idle (fetched_of_no_call hturns hheld hcalls),
          step_fetched_idle (fetched_of_no_call hturns' hheld' (hcalls'.trans hcalls)), hturns, hturns']
        exact .next htaken
      | cons w ws =>
        replace hcalls' := hcalls'.trans hcalls
        cases hdecode : decode w with
        | error why =>
          rw [step_fetched_refuse (fetched_of_invalid_call hturns hheld hcalls hdecode),
            step_fetched_refuse (fetched_of_invalid_call hturns' hheld' hcalls' hdecode)]
          rfl
        | ok i =>
          by_cases hagent : agentOf i = a
          · rw [step_fetched_run (fetched_of_call hturns hheld hcalls hdecode hagent),
              step_fetched_run (fetched_of_call hturns' hheld' hcalls' hdecode hagent)]
            exact hR.exec _ (hR.withCalls a ws htaken)
          · rw [step_fetched_refuse (fetched_of_wrong_agent hturns hheld hcalls hdecode hagent),
              step_fetched_refuse (fetched_of_wrong_agent hturns' hheld' hcalls' hdecode hagent)]
            rfl

end twoRuns

/-! ## Two folds on one square (R125) -/

theorem SameButMaskedEnvelope.refl (q : Square) : SameButMaskedEnvelope q q := ⟨rfl, fun _ => rfl⟩

section square
variable {c d : Config} {p q : Square} (hcd : SameButFold c d) (h : SameButMaskedEnvelope p q)

include hcd in
/-- The configuration `d` is `c` with a fold of its own. -/
theorem SameButFold.exists_eq : ∃ f, d = { c with envFoldExceptions := f } := ⟨_, hcd.1⟩

include h

/-- The square `q` is `p` with an envelope of its own. -/
theorem SameButMaskedEnvelope.exists_eq :
    ∃ e, q = { p with envelope := e } ∧ (p.envelopeDisabled = false → e = p.envelope) := ⟨_, h⟩

/-- A sounding clock uses the envelope only where the flag says it is the written one (R162). -/
theorem SameButMaskedEnvelope.sounding : sounding q = sounding p := by
  obtain ⟨e, rfl, he⟩ := h.exists_eq
  cases hdisabled : p.envelopeDisabled with
  | true => simp [Machine.sounding, hdisabled]
  | false => simp [Machine.sounding, hdisabled, he hdisabled]

theorem SameButMaskedEnvelope.squareSweep (v : Byte) : SameButMaskedEnvelope (squareSweep v p) (squareSweep v q) := by
  obtain ⟨e, rfl, he⟩ := h.exists_eq
  exact ⟨rfl, he⟩

theorem SameButMaskedEnvelope.squareLow (v : Byte) : SameButMaskedEnvelope (squareLow v p) (squareLow v q) := by
  obtain ⟨e, rfl, he⟩ := h.exists_eq
  exact ⟨rfl, he⟩

include hcd

/-- A control write masks the envelope exactly when it sets the bit on which the folds may differ (R121). -/
theorem SameButMaskedEnvelope.squareControl (v : Byte) :
    SameButMaskedEnvelope (squareControl c v p) (squareControl d v q) := by
  obtain ⟨e, rfl, -⟩ := h.exists_eq
  exact ⟨rfl, hcd.2 v⟩

theorem SameButMaskedEnvelope.squareHigh (v : Byte) :
    SameButMaskedEnvelope (squareHigh c v p) (squareHigh d v q) := by
  obtain ⟨e, rfl, he⟩ := h.exists_eq
  obtain ⟨f, rfl⟩ := hcd.exists_eq
  exact ⟨rfl, he⟩

theorem SameButMaskedEnvelope.disableSquare (on : Bool) :
    SameButMaskedEnvelope (disableSquare c on p) (disableSquare d on q) := by
  obtain ⟨e, rfl, he⟩ := h.exists_eq
  obtain ⟨f, rfl⟩ := hcd.exists_eq
  cases on with
  | true => exact ⟨rfl, he⟩
  | false => exact ⟨rfl, he⟩

theorem SameButMaskedEnvelope.tickSquare (fc : Int) :
    SameButMaskedEnvelope (tickSquare c fc p) (tickSquare d fc q) := by
  obtain ⟨e, rfl, he⟩ := h.exists_eq
  obtain ⟨f, rfl⟩ := hcd.exists_eq
  rw [tickSquare_eq, tickSquare_eq]
  exact ⟨rfl, he⟩

/-- A sounding clock leaves one and the same square: it writes the envelope it uses (R162). -/
theorem SameButMaskedEnvelope.clock_eq (hs : ¬ Silent c p) : clock d q = clock c p := by
  have hsounding := h.sounding
  obtain ⟨e, rfl, he⟩ := h.exists_eq
  obtain ⟨f, rfl⟩ := hcd.exists_eq
  have hs' : ¬ Silent { c with envFoldExceptions := f } { p with envelope := e } := hs
  by_cases h0 : p.timerCount = 0
  · rw [clock_reload c p hs h0, clock_reload _ _ hs' h0, hsounding]
    rfl
  · rw [clock_count c p hs h0, clock_count _ _ hs' h0, hsounding]
    rfl

/-- A silent clock keeps both envelopes (R161). -/
theorem SameButMaskedEnvelope.clock : SameButMaskedEnvelope (clock c p) (clock d q) := by
  by_cases hs : Silent c p
  · obtain ⟨e, rfl, he⟩ := h.exists_eq
    obtain ⟨f, rfl⟩ := hcd.exists_eq
    have hs' : Silent { c with envFoldExceptions := f } { p with envelope := e } := hs
    rw [clock_silent c p hs, clock_silent _ _ hs']
    exact ⟨rfl, he⟩
  · rw [h.clock_eq hcd hs]
    exact .refl _

theorem SameButMaskedEnvelope.clockIfPitched (enabled : Bool) :
    SameButMaskedEnvelope (clockIfPitched c enabled p) (clockIfPitched d enabled q) := by
  have htimer : q.timer = p.timer := by rw [h.1]
  unfold Machine.clockIfPitched
  rw [htimer]
  split
  · exact h.clock hcd
  · exact h

end square

/-! ## Two folds on the machine (R125) -/

/-- `s` under another fold and with other envelopes. -/
def State.withFoldEnvelopes (s : State) (f : List (Byte × BitVec 4)) (e₁ e₂ : BitVec 4) : State :=
  { s with
    cfg := { s.cfg with envFoldExceptions := f }
    apu := { s.apu with sq1 := { s.apu.sq1 with envelope := e₁ }, sq2 := { s.apu.sq2 with envelope := e₂ } } }

section machine
variable {s t : State} (h : SameButEnvelopeFold s t)
include h

theorem SameButEnvelopeFold.exists_eq : ∃ f e₁ e₂, t = s.withFoldEnvelopes f e₁ e₂ := by
  obtain ⟨⟨hcfg, -⟩, ⟨hsq1, -⟩, ⟨hsq2, -⟩, hrest⟩ := h
  exact ⟨_, _, _, hrest.trans (by rw [State.withFoldEnvelopes, ← hcfg, ← hsq1, ← hsq2])⟩

theorem SameButEnvelopeFold.withTurns (ts : List Agent) : SameButEnvelopeFold (s.withTurns ts) (t.withTurns ts) :=
  { h with rest := congrArg (·.withTurns ts) h.rest }

theorem SameButEnvelopeFold.withCalls (a : Agent) (ws : List Word) :
    SameButEnvelopeFold (s.withCalls a ws) (t.withCalls a ws) := by
  cases a with
  | host => exact { h with rest := congrArg (·.withCalls .host ws) h.rest }
  | consumer => exact { h with rest := congrArg (·.withCalls .consumer ws) h.rest }

/-- The push reads the samples, the FIFO and its depth, in which the machines are alike. -/
theorem SameButEnvelopeFold.execPush : AgreeUpTo SameButEnvelopeFold (execPush s) (execPush t) := by
  obtain ⟨f, e₁, e₂, rfl⟩ := h.exists_eq
  by_cases hf : s.apu.fifo.length = fifoDepth s.cfg
  · rw [execPush_full s hf, execPush_full (s.withFoldEnvelopes f e₁ e₂) hf]
    exact .next { h with rest := rfl }
  · rw [execPush_room s hf, execPush_room (s.withFoldEnvelopes f e₁ e₂) hf]
    exact .next { h with rest := rfl }

theorem SameButEnvelopeFold.execPop : AgreeUpTo SameButEnvelopeFold (execPop s) (execPop t) := by
  obtain ⟨f, e₁, e₂, rfl⟩ := h.exists_eq
  cases hf : s.apu.fifo with
  | nil =>
    rw [execPop_empty s hf, execPop_empty (s.withFoldEnvelopes f e₁ e₂) hf]
    exact .next { h with rest := rfl }
  | cons x rest =>
    rw [execPop_cons s x rest hf, execPop_cons (s.withFoldEnvelopes f e₁ e₂) x rest hf]
    exact .next { h with rest := rfl }

/-- Every transaction keeps the machines alike: the squares by the rules of one square above, and everything else because
each machine computes it from what both have. -/
theorem SameButEnvelopeFold.exec (i : Instr) : AgreeUpTo SameButEnvelopeFold (exec i s) (exec i t) := by
  obtain ⟨f, e₁, e₂, rfl⟩ := h.exists_eq
  exact match i with
  | .wrSq1Ctrl _ v => .next { h with sq1 := h.sq1.squareControl h.cfg v, rest := rfl }
  | .wrSq1Sweep _ v => .next { h with sq1 := h.sq1.squareSweep v, rest := rfl }
  | .wrSq1Lo _ v => .next { h with sq1 := h.sq1.squareLow v, rest := rfl }
  | .wrSq1Hi _ v => .next { h with sq1 := h.sq1.squareHigh h.cfg v, rest := rfl }
  | .wrSq2Ctrl _ v => .next { h with sq2 := h.sq2.squareControl h.cfg v, rest := rfl }
  | .wrSq2Sweep _ v => .next { h with sq2 := h.sq2.squareSweep v, rest := rfl }
  | .wrSq2Lo _ v => .next { h with sq2 := h.sq2.squareLow v, rest := rfl }
  | .wrSq2Hi _ v => .next { h with sq2 := h.sq2.squareHigh h.cfg v, rest := rfl }
  | .wrTriCtrl _ _ => .next { h with rest := rfl }
  | .wrTriLo _ _ => .next { h with rest := rfl }
  | .wrTriHi _ _ => .next { h with rest := rfl }
  | .wrEnable _ _ =>
    .next { h with sq1 := h.sq1.disableSquare h.cfg _, sq2 := h.sq2.disableSquare h.cfg _, rest := rfl }
  | .wrFrameMode _ _ => .next { h with rest := rfl }
  | .wrUnmapped _ _ _ => .next h
  | .rdStatus _ => .next { h with rest := rfl }
  | .rdZero _ _ => .next { h with rest := rfl }
  | .stepc => .next { h with sq1 := h.sq1.clockIfPitched h.cfg _, sq2 := h.sq2.clockIfPitched h.cfg _, rest := rfl }
  | .stepf => .next { h with sq1 := h.sq1.tickSquare h.cfg _, sq2 := h.sq2.tickSquare h.cfg _, rest := rfl }
  | .push => h.execPush
  | .pop => h.execPop

end machine

/-- Settles O44: the two machines have the same agents, and every transaction keeps them alike. -/
theorem envelopeFoldIsUnobservable : Obligations.EnvelopeFoldIsUnobservable := by
  intro s t h
  have hkept : KeptByTransactions SameButEnvelopeFold := {
    turns := fun h => by rw [h.rest]
    host := fun h => by rw [h.rest]
    consumer := fun h => by rw [h.rest]
    withTurns := fun ts h => h.withTurns ts
    withCalls := fun a ws h => h.withCalls a ws
    exec := fun i h => h.exec i }
  exact hkept.step h

/-! ## The writes of the square channels (R121 to R124) -/

/-- Settles O1: the four fields of the control byte. -/
theorem squareControlWriteSetsFourFields : Obligations.SquareControlWriteSetsFourFields :=
  fun _ _ _ => ⟨rfl, rfl⟩

/-- The stored period is the field plus 1, without a carry out of four bits (R96). -/
theorem sweepPeriodField_toNat (v : Byte) : (sweepPeriodField v).toNat = (v.extractLsb' 4 3).toNat + 1 := by
  have hfield : (v.extractLsb' 4 3).toNat < 8 := (v.extractLsb' 4 3).isLt
  simp only [sweepPeriodField, BitVec.toNat_add, BitVec.toNat_setWidth, BitVec.ofNat_eq_ofNat, BitVec.toNat_ofNat]
  omega

/-- Settles O2: the period is `sweepPeriodField`, and the other three fields are read off the byte. -/
theorem squareSweepWriteSetsFourFields : Obligations.SquareSweepWriteSetsFourFields :=
  fun _ v _ => ⟨sweepPeriodField v, sweepPeriodField_toNat v, rfl, rfl⟩

theorem squareLow_eq (v : Byte) (q : Square) :
    squareLow v q = { q with timer := q.timer / 256 % 8 * 256 + v.toNat } := by
  rw [squareLow, timerLow_toNat]

/-- Settles O3: the assembled 11-bit timer, written as a number. -/
theorem squareTimerLowWriteReplacesLowBits : Obligations.SquareTimerLowWriteReplacesLowBits := by
  intro ahi v s
  exact ⟨congrArg (fun q => (.next (s.withSq1 q) : Result)) (squareLow_eq v s.apu.sq1),
    congrArg (fun q => (.next (s.withSq2 q) : Result)) (squareLow_eq v s.apu.sq2)⟩

theorem squareHigh_eq (c : Config) (v : Byte) (q : Square) :
    squareHigh c v q =
      { q with timer := v.toNat % 8 * 256 + q.timer % 256, length := lengthEntry c (v.extractLsb' 3 5) } := by
  rw [squareHigh, timerHigh_toNat, BitVec.extractLsb'_toNat, Nat.shiftRight_zero]
  rfl

theorem lengthField_toNat (v : Byte) : (lengthField v).toNat = v.toNat / 8 := by
  have hv := v.isLt
  simp only [lengthField, BitVec.extractLsb'_toNat, Nat.shiftRight_eq_div_pow]
  omega

/-- Settles O4: both bytes of the timer and the table's entry, the last of which is fixed (R68). -/
theorem squareTimerHighWriteLoadsLength : Obligations.SquareTimerHighWriteLoadsLength := by
  intro ahi v s
  exact ⟨congrArg (fun q => (.next (s.withSq1 q) : Result)) (squareHigh_eq s.cfg v s.apu.sq1),
    congrArg (fun q => (.next (s.withSq2 q) : Result)) (squareHigh_eq s.cfg v s.apu.sq2),
    fun hlast => lengthEntry_of_toNat_eq s.cfg ((lengthField_toNat v).trans hlast)⟩

/-! ## The writes of the triangle (R127 to R129) -/

/-- Settles O5: each field is its slice of the byte. -/
theorem triangleControlAndLowWritesSetTheirFields : Obligations.TriangleControlAndLowWritesSetTheirFields :=
  fun _ _ _ => ⟨rfl, rfl⟩

/-- The raw length keeps its five bits in the eight of the length counter (R129). -/
theorem lengthField_setWidth (v : Byte) : (lengthField v).setWidth 8 = BitVec.ofNat 8 (v.toNat / 8) := by
  apply BitVec.eq_of_toNat_eq
  rw [BitVec.toNat_setWidth, BitVec.toNat_ofNat, lengthField_toNat]

/-- Settles O6: no flag is tested, and the length is the field widened. -/
theorem triangleHighWriteLoadsRawLength : Obligations.TriangleHighWriteLoadsRawLength := by
  intro ahi v s
  rw [← lengthField_setWidth]
  rfl

/-! ## The global writes (R131 to R134) -/

/-- Settles O7: the update of each channel is `disableSquare` or `disableTriangle` by its own bit. -/
theorem channelEnableWriteSetsFlagsAndZeroesLengths : Obligations.ChannelEnableWriteSetsFlagsAndZeroesLengths :=
  fun _ _ _ => rfl

theorem frameModeNumber_frameModeField (v : Byte) :
    frameModeNumber (frameModeField v) = if v.getLsbD 7 then 5 else 4 := by
  unfold frameModeField
  split <;> rfl

/-- Settles O8: the counter restarts at the number of the new mode. -/
theorem frameModeWriteRestartsSequence : Obligations.FrameModeWriteRestartsSequence := by
  intro ahi v s
  rw [← frameModeNumber_frameModeField]
  rfl

/-- No register has an offset in the holes of the map (20_memory.md R61). -/
theorem mappedOffsets_not_hole : ∀ off ∈ mappedOffsets,
    ¬ (off.toNat = 0x09 ∨ (0x0C ≤ off.toNat ∧ off.toNat ≤ 0x14) ∨ off.toNat = 0x16 ∨ 0x18 ≤ off.toNat) := by
  decide

/-- Settles O9: a hole of the map is no mapped offset, and the default row takes it. -/
theorem unmappedWriteChangesNothing : Obligations.UnmappedWriteChangesNothing := by
  refine ⟨fun _ _ _ _ => rfl, fun ahi off v hhole => ?_⟩
  have hunmapped : off ∉ mappedOffsets := fun hmem => mappedOffsets_not_hole off hmem hhole
  rw [decode_word, decodeFields_wr, decodeWrite_unmapped hunmapped]

/-! ## The reads (R135 to R137) -/

theorem active_iff (l : BitVec 8) : active l = true ↔ 0 < l.toNat := decide_eq_true_iff

/-- A flag moved to bit `k` of a byte is that bit, and every other bit is 0. -/
theorem bit_shiftLeft_getLsbD (b : Bool) {k : Nat} (hk : k < 8) (n : Nat) :
    (bit b <<< k).getLsbD n = true ↔ n = k ∧ b = true := by
  cases b with
  | false => simp [bit]
  | true =>
    simp [bit]
    omega

theorem statusTriBitNumber_lt (b : StatusTriBit) : statusTriBitNumber b < 8 := by
  cases b <;> decide

/-- The status byte, bit by bit (R136). -/
theorem statusByte_getLsbD (c : Config) (a : Apu) (n : Nat) :
    (statusByte c a).getLsbD n = true ↔
      (n = 0 ∧ 0 < a.sq1.length.toNat) ∨ (n = 1 ∧ 0 < a.sq2.length.toNat) ∨
      (n = statusTriBitNumber c.statusTriBit ∧ 0 < a.tri.length.toNat) := by
  have hsq1 := bit_shiftLeft_getLsbD (active a.sq1.length) (k := 0) (by decide) n
  have hsq2 := bit_shiftLeft_getLsbD (active a.sq2.length) (k := 1) (by decide) n
  have htri := bit_shiftLeft_getLsbD (active a.tri.length) (statusTriBitNumber_lt c.statusTriBit) n
  rw [BitVec.shiftLeft_zero] at hsq1
  rw [active_iff] at hsq1 hsq2 htri
  rw [statusByte, BitVec.getLsbD_or, BitVec.getLsbD_or, Bool.or_eq_true, Bool.or_eq_true, hsq1, hsq2, htri, or_assoc]

/-- Settles O10: the byte returned is the status byte. -/
theorem statusReadReportsNonZeroLengths : Obligations.StatusReadReportsNonZeroLengths := by
  intro ahi s
  refine ⟨statusByte s.cfg s.apu, rfl, fun n => ?_⟩
  rw [statusByte_getLsbD]
  rfl

/-- Settles O11: the default row of the reads takes every offset but the status register's. -/
theorem zeroReadReturnsZero : Obligations.ZeroReadReturnsZero := by
  refine ⟨fun _ _ _ => rfl, fun ahi off hoff => ?_⟩
  rw [decode_word, decodeFields_rd, decodeRead_ok_iff]
  exact ⟨rfl, (if_neg hoff).symm⟩

end Sys2Proof.Machine
end

section
/-! PROOFS. The squares under every transaction (spec/41_pulse_oscillator.md): what moves the record of a square or of
the triangle (R160 to R166, R171), what a silent square keeps (R170), that the channels are independent (R172), and the
period of a sounding square (R167, R168). -/

namespace Sys2Proof.Machine

/-! ## One clock of a square (R160 to R165) -/

/-- Counting up by one, written with numbers. -/
theorem ofNat_toNat_succ_mod {w : Nat} (x : BitVec w) : BitVec.ofNat w ((x.toNat + 1) % 2 ^ w) = x + 1 := by
  apply BitVec.eq_of_toNat_eq
  simp [BitVec.toNat_add]

theorem clock_squareClocked (c : Config) (q : Square) : SquareClocked c q (clock c q) where
  silent := clock_silent c q
  reload hs h0 := by
    rw [clock_reload c q hs h0, ← ofNat_toNat_succ_mod q.dutyCount]
    rfl
  count := clock_count c q

/-- A clock writes the envelope, the phase and the sample, and nothing else. -/
theorem clock_frame (c : Config) (q : Square) :
    clock c q = { q with
      envelope := (clock c q).envelope
      dutyCount := (clock c q).dutyCount
      timerCount := (clock c q).timerCount
      sample := (clock c q).sample } := by
  by_cases hs : Silent c q
  · rw [clock_silent c q hs]
  · by_cases h0 : q.timerCount = 0
    · rw [clock_reload c q hs h0]
    · rw [clock_count c q hs h0]

theorem clock_timer (c : Config) (q : Square) : (clock c q).timer = q.timer := by
  rw [clock_frame]

theorem clock_length (c : Config) (q : Square) : (clock c q).length = q.length := by
  rw [clock_frame]

/-! ## What `STEPC` and `STEPF` leave (R166, R210) -/

section steps
variable {s t : State} {k : Channel}

theorem square_of_stepc (h : exec .stepc s = .next t) (k : Channel) :
    t.square k = clockIfPitched s.cfg (s.squareEnabled k) (s.square k) := by
  cases h
  cases k <;> rfl

theorem squareEnabled_of_stepc (h : exec .stepc s = .next t) (k : Channel) :
    t.squareEnabled k = s.squareEnabled k := by
  cases h
  cases k <;> rfl

theorem square_of_stepf (h : exec .stepf s = .next t) (k : Channel) :
    t.square k = tickSquare s.cfg s.apu.frameCounter (s.square k) := by
  cases h
  cases k <;> rfl

theorem clockIfPitched_of_pitched (hp : s.Pitched k) :
    clockIfPitched s.cfg (s.squareEnabled k) (s.square k) = clock s.cfg (s.square k) := by
  simp [clockIfPitched, hp.1, hp.2]

theorem clockIfPitched_of_not_pitched (hp : ¬ s.Pitched k) :
    clockIfPitched s.cfg (s.squareEnabled k) (s.square k) = s.square k :=
  if_neg fun hgate => hp (by simpa [State.Pitched] using hgate)

theorem square_of_stepc_pitched (h : exec .stepc s = .next t) (hp : s.Pitched k) :
    t.square k = clock s.cfg (s.square k) :=
  (square_of_stepc h k).trans (clockIfPitched_of_pitched hp)

theorem square_of_stepc_not_pitched (h : exec .stepc s = .next t) (hp : ¬ s.Pitched k) : t.square k = s.square k :=
  (square_of_stepc h k).trans (clockIfPitched_of_not_pitched hp)

/-- What `STEPC` makes of the triangle. -/
def State.cycledTri (s : State) : Triangle :=
  if s.cfg.stepClocksTriangle then triClock s.apu.triangleEnabled s.apu.tri else s.apu.tri

theorem tri_of_stepc (h : exec .stepc s = .next t) : t.apu.tri = s.cycledTri := by
  cases h
  rfl

theorem cycledTri_of_clocked (hc : s.TriangleClocked) :
    s.cycledTri = { s.apu.tri with sample := triEntry s.apu.tri.counter, counter := s.apu.tri.counter + 1 } := by
  obtain ⟨hcfg, henabled, htimer⟩ := hc
  have hne : s.apu.tri.timer ≠ 0 := fun h0 => by simp [h0] at htimer
  rw [State.cycledTri, if_pos hcfg, henabled, triClock_run _ hne]

theorem cycledTri_of_not_clocked (hc : ¬ s.TriangleClocked) : s.cycledTri = s.apu.tri := by
  by_cases hcfg : s.cfg.stepClocksTriangle = true
  · rw [State.cycledTri, if_pos hcfg]
    exact if_neg fun hgate => hc ⟨hcfg, by simpa using hgate⟩
  · exact if_neg hcfg

end steps

/-- Settles O12: each square by the pitch gate and the clock, the triangle by its own gate; the frame is the form of
`execStepc`. -/
theorem stepCycleClocksTheOscillators : Obligations.StepCycleClocksTheOscillators := by
  intro s
  obtain ⟨t, h⟩ : ∃ t, exec .stepc s = .next t := exec_answers_next .stepc s
  refine ⟨t, h, fun k hp => ?_, fun k hp => square_of_stepc_not_pitched h hp, ?_, ?_⟩
  · rw [square_of_stepc_pitched h hp]
    exact clock_squareClocked s.cfg (s.square k)
  · rw [tri_of_stepc h]
    by_cases hc : s.TriangleClocked
    · refine (cycledTri_of_clocked hc).trans (Eq.trans ?_ (if_pos hc).symm)
      rw [← ofNat_toNat_succ_mod]
      rfl
    · exact (cycledTri_of_not_clocked hc).trans (if_neg hc).symm
  · cases h
    rfl

/-- Settles O43: both steps compute a square from the parameters, its record, its flag and the frame counter. -/
theorem squaresAreIndependent : Obligations.SquaresAreIndependent := by
  intro s s' t t' k k' hcfg hsquare henabled
  refine ⟨fun h h' => ?_, fun hcounter h h' => ?_⟩
  · rw [square_of_stepc h, square_of_stepc h', hcfg, hsquare, henabled]
  · rw [square_of_stepf h, square_of_stepf h', hcfg, hsquare, hcounter]

/-! ## What a transaction can make of one channel -/

/-- The channel's own timer high write. -/
def Channel.highWrite (k : Channel) (ahi v : Byte) : Instr :=
  match k with
  | .one => .wrSq1Hi ahi v
  | .two => .wrSq2Hi ahi v

/-- What the transaction `i` can make of the square `k`: nothing, one of its four register writes, the channel-enable
write, a cycle or a tick. -/
inductive SquareMove (s : State) (k : Channel) (i : Instr) : Square → Prop
  | kept : SquareMove s k i (s.square k)
  | control (v : Byte) : SquareMove s k i (squareControl s.cfg v (s.square k))
  | sweep (v : Byte) : SquareMove s k i (squareSweep v (s.square k))
  | low (v : Byte) : SquareMove s k i (squareLow v (s.square k))
  | high (ahi v : Byte) (hi : i = k.highWrite ahi v) : SquareMove s k i (squareHigh s.cfg v (s.square k))
  | enable (ahi v : Byte) (hi : i = .wrEnable ahi v) :
      SquareMove s k i (disableSquare s.cfg (v.getLsbD k.enableBit) (s.square k))
  | cycle (hi : i = .stepc) : SquareMove s k i (clockIfPitched s.cfg (s.squareEnabled k) (s.square k))
  | tick (hi : i = .stepf) : SquareMove s k i (tickSquare s.cfg s.apu.frameCounter (s.square k))

/-- What the transaction `i` can make of the triangle. -/
inductive TriangleMove (s : State) (i : Instr) : Triangle → Prop
  | kept : TriangleMove s i s.apu.tri
  | control (v : Byte) : TriangleMove s i (triControl v s.apu.tri)
  | low (v : Byte) : TriangleMove s i (triLow v s.apu.tri)
  | high (v : Byte) : TriangleMove s i (triHigh v s.apu.tri)
  | enable (ahi v : Byte) (hi : i = .wrEnable ahi v) :
      TriangleMove s i (disableTriangle s.cfg (v.getLsbD 2) s.apu.tri)
  | cycle (hi : i = .stepc) : TriangleMove s i s.cycledTri

section moves
variable {i : Instr} {s t : State} {k : Channel}

/-- A push reaches no channel, on either side of its full test. -/
theorem execPush_apu (h : execPush s = .next t) : t.apu = { s.apu with fifo := t.apu.fifo } := by
  by_cases hf : s.apu.fifo.length = fifoDepth s.cfg
  · rw [execPush_full s hf] at h
    cases h
    rfl
  · rw [execPush_room s hf] at h
    cases h
    rfl

/-- A pop reaches no channel, on either side of its empty test. -/
theorem execPop_apu (h : execPop s = .next t) : t.apu = { s.apu with fifo := t.apu.fifo } := by
  cases hf : s.apu.fifo with
  | nil =>
    rw [execPop_empty s hf] at h
    cases h
    rfl
  | cons x rest =>
    rw [execPop_cons s x rest hf] at h
    cases h
    rfl

theorem SquareMove.of_apu (h : t.apu = { s.apu with fifo := t.apu.fifo }) (k : Channel) :
    SquareMove s k i (t.square k) := by
  have hkept : t.square k = s.square k := by cases k <;> simp only [State.square] <;> rw [h]
  rw [hkept]
  exact .kept

theorem SquareMove.of_withSq1 {q : Square} (h : SquareMove s .one i q) :
    ∀ k : Channel, SquareMove s k i ((s.withSq1 q).square k)
  | .one => h
  | .two => .kept

theorem SquareMove.of_withSq2 {q : Square} (h : SquareMove s .two i q) :
    ∀ k : Channel, SquareMove s k i ((s.withSq2 q).square k)
  | .one => .kept
  | .two => h

/-- Every transaction makes one of the moves of each square. -/
theorem SquareMove.of_exec (h : exec i s = .next t) (k : Channel) : SquareMove s k i (t.square k) := by
  cases i with
  | wrSq1Ctrl _ v => cases h; exact .of_withSq1 (.control v) k
  | wrSq1Sweep _ v => cases h; exact .of_withSq1 (.sweep v) k
  | wrSq1Lo _ v => cases h; exact .of_withSq1 (.low v) k
  | wrSq1Hi ahi v => cases h; exact .of_withSq1 (.high ahi v rfl) k
  | wrSq2Ctrl _ v => cases h; exact .of_withSq2 (.control v) k
  | wrSq2Sweep _ v => cases h; exact .of_withSq2 (.sweep v) k
  | wrSq2Lo _ v => cases h; exact .of_withSq2 (.low v) k
  | wrSq2Hi ahi v => cases h; exact .of_withSq2 (.high ahi v rfl) k
  | wrEnable ahi v =>
    cases h
    cases k with
    | one => exact .enable ahi v rfl
    | two => exact .enable ahi v rfl
  | stepc => exact square_of_stepc h k ▸ .cycle rfl
  | stepf => exact square_of_stepf h k ▸ .tick rfl
  | push => exact .of_apu (execPush_apu h) k
  | pop => exact .of_apu (execPop_apu h) k
  | wrTriCtrl | wrTriLo | wrTriHi | wrFrameMode | wrUnmapped | rdStatus | rdZero => cases h; exact .of_apu rfl k

theorem TriangleMove.of_apu (h : t.apu = { s.apu with fifo := t.apu.fifo }) : TriangleMove s i t.apu.tri := by
  rw [h]
  exact .kept

/-- Every transaction makes one of the moves of the triangle. -/
theorem TriangleMove.of_exec (h : exec i s = .next t) : TriangleMove s i t.apu.tri := by
  cases i with
  | wrTriCtrl _ v => cases h; exact .control v
  | wrTriLo _ v => cases h; exact .low v
  | wrTriHi _ v => cases h; exact .high v
  | wrEnable ahi v => cases h; exact .enable ahi v rfl
  | stepc => exact tri_of_stepc h ▸ .cycle rfl
  | push => exact .of_apu (execPush_apu h)
  | pop => exact .of_apu (execPop_apu h)
  | _ => cases h; exact .kept

/-! ## The hidden fields (R171) -/

/-- A $4015 write that is no clearing one has the channel's bit set or leaves the samples alone (R132). -/
theorem bit_or_keeps_of_not_clearsSample {c : Config} {ahi v : Byte} {n : Nat}
    (h : ¬ ClearsSample c (.wrEnable ahi v) n) : v.getLsbD n = true ∨ c.disableClearsSample = false := by
  by_contra! hno
  obtain ⟨hbit, hclears⟩ := hno
  exact h ⟨Bool.eq_true_of_not_eq_false hclears, ahi, v, rfl, Bool.eq_false_of_not_eq_true hbit⟩

theorem disableSquare_phase (c : Config) (on : Bool) (q : Square) :
    (disableSquare c on q).dutyCount = q.dutyCount ∧ (disableSquare c on q).timerCount = q.timerCount := by
  cases on with
  | true => exact ⟨rfl, rfl⟩
  | false => exact ⟨rfl, rfl⟩

theorem disableSquare_sample {c : Config} {on : Bool} (h : on = true ∨ c.disableClearsSample = false) (q : Square) :
    (disableSquare c on q).sample = q.sample := by
  obtain rfl | hkeeps := h
  · rfl
  · cases on with
    | true => rfl
    | false => simp [disableSquare, hkeeps]

theorem disableTriangle_counter (c : Config) (on : Bool) (r : Triangle) :
    (disableTriangle c on r).counter = r.counter := by
  cases on with
  | true => rfl
  | false => rfl

theorem disableTriangle_sample {c : Config} {on : Bool} (h : on = true ∨ c.disableClearsSample = false)
    (r : Triangle) : (disableTriangle c on r).sample = r.sample := by
  obtain rfl | hkeeps := h
  · rfl
  · cases on with
    | true => rfl
    | false => simp [disableTriangle, hkeeps]

/-- Of the moves of a square only a cycle reaches its phase, and a cycle only where it sounds. -/
theorem SquareMove.phase {q : Square} (h : SquareMove s k i q)
    (hclock : ¬ (i = .stepc ∧ s.Pitched k ∧ ¬ Silent s.cfg (s.square k))) :
    q.dutyCount = (s.square k).dutyCount ∧ q.timerCount = (s.square k).timerCount := by
  cases h with
  | enable ahi v hi => exact disableSquare_phase ..
  | cycle hi =>
    by_cases hp : s.Pitched k
    · have hs : Silent s.cfg (s.square k) := by_contra fun hs => hclock ⟨hi, hp, hs⟩
      rw [clockIfPitched_of_pitched hp, clock_silent _ _ hs]
      exact ⟨rfl, rfl⟩
    · rw [clockIfPitched_of_not_pitched hp]
      exact ⟨rfl, rfl⟩
  | tick hi => rw [tickSquare_eq]; exact ⟨rfl, rfl⟩
  | kept | control | sweep | low | high => exact ⟨rfl, rfl⟩

/-- Of the moves of a square only a cycle and a channel-enable write reach its sample. -/
theorem SquareMove.sample {q : Square} (h : SquareMove s k i q) (hclock : ¬ (i = .stepc ∧ s.Pitched k))
    (hclear : ¬ ClearsSample s.cfg i k.enableBit) : q.sample = (s.square k).sample := by
  cases h with
  | enable ahi v hi =>
    subst hi
    exact disableSquare_sample (bit_or_keeps_of_not_clearsSample hclear) _
  | cycle hi => rw [clockIfPitched_of_not_pitched fun hp => hclock ⟨hi, hp⟩]
  | tick hi => rw [tickSquare_eq]
  | kept | control | sweep | low | high => rfl

/-- Of the moves of the triangle only a cycle reaches its step index. -/
theorem TriangleMove.counter {r : Triangle} (h : TriangleMove s i r) (hclock : ¬ (i = .stepc ∧ s.TriangleClocked)) :
    r.counter = s.apu.tri.counter := by
  cases h with
  | enable ahi v hi => exact disableTriangle_counter ..
  | cycle hi => rw [cycledTri_of_not_clocked fun hc => hclock ⟨hi, hc⟩]
  | kept | control | low | high => rfl

/-- Of the moves of the triangle only a cycle and a channel-enable write reach its sample. -/
theorem TriangleMove.sample {r : Triangle} (h : TriangleMove s i r) (hclock : ¬ (i = .stepc ∧ s.TriangleClocked))
    (hclear : ¬ ClearsSample s.cfg i 2) : r.sample = s.apu.tri.sample := by
  cases h with
  | enable ahi v hi =>
    subst hi
    exact disableTriangle_sample (bit_or_keeps_of_not_clearsSample hclear) _
  | cycle hi => rw [cycledTri_of_not_clocked fun hc => hclock ⟨hi, hc⟩]
  | kept | control | low | high => rfl

/-! ## A length of 0 (R170) -/

theorem disableSquare_length_zero (c : Config) (on : Bool) {q : Square} (h : q.length = 0) :
    (disableSquare c on q).length = 0 := by
  cases on with
  | true => exact h
  | false => rfl

theorem clockIfPitched_length (c : Config) (enabled : Bool) (q : Square) :
    (clockIfPitched c enabled q).length = q.length := by
  unfold clockIfPitched
  split
  · exact clock_length c q
  · rfl

/-- A tick never counts a length up (R212). -/
theorem tickLength_zero (c : Config) (fc : Int) {q : Square} (h : q.length = 0) : tickLength c fc q = 0 :=
  BitVec.eq_of_toNat_eq (Nat.le_zero.1 (by simpa [h] using tickLength_le c fc q))

/-- Of the moves of a square only its own high write loads a length. -/
theorem SquareMove.length_zero {q : Square} (h : SquareMove s k i q) (h0 : (s.square k).length = 0)
    (hown : ∀ ahi v, i ≠ k.highWrite ahi v) : q.length = 0 := by
  cases h with
  | high ahi v hi => exact absurd hi (hown ahi v)
  | enable ahi v hi => exact disableSquare_length_zero _ _ h0
  | cycle hi => exact (clockIfPitched_length ..).trans h0
  | tick hi => rw [tickSquare_eq]; exact tickLength_zero _ _ h0
  | kept | control | sweep | low => exact h0

end moves

/-- Settles O39: every transaction makes one of the moves of each channel, and the moves that reach a hidden field are
the listed ones. -/
theorem hiddenFieldsMoveOnlyByTheClock : Obligations.HiddenFieldsMoveOnlyByTheClock := by
  intro i s t h
  exact ⟨fun k => (SquareMove.of_exec h k).phase, fun k => (SquareMove.of_exec h k).sample,
    (TriangleMove.of_exec h).counter, (TriangleMove.of_exec h).sample⟩

/-- Settles O42: no other move than the channel's own high write loads a length, and a silent clock answers 0. -/
theorem silentSquareStaysSilentUntilReloaded : Obligations.SilentSquareStaysSilentUntilReloaded := by
  intro i s t k h h0 hother
  have hown : ∀ ahi v, i ≠ k.highWrite ahi v := by
    cases k with
    | one => exact hother
    | two => exact hother
  refine ⟨(SquareMove.of_exec h k).length_zero h0 hown, fun hi hp hs => ?_⟩
  subst hi
  rw [square_of_stepc_pitched h hp, clock_silent _ _ hs]

/-! ## The period of a sounding square (R167, R168) -/

section period
variable {c : Config} {q : Square} {n r : Nat}

/-- The square `q` after `n` whole periods and `r` clocks of the next. -/
def Square.inPeriod (c : Config) (q : Square) (n r : Nat) : Square :=
  { q with
    envelope := sounding q
    dutyCount := BitVec.ofNat 3 (q.dutyCount.toNat + n + 1)
    timerCount := 2 * (q.timer + 1) - r
    sample := if dutyBit c q.dutyCycle (BitVec.ofNat 3 (q.dutyCount.toNat + n + 1)) = 1 then sounding q else 0 }

/-- Forcing the envelope a second time changes nothing (R162). -/
theorem Square.inPeriod_sounding : sounding (q.inPeriod c n r) = sounding q := by
  cases he : q.envelopeDisabled <;> simp [Square.inPeriod, sounding, he]

/-- The first clock of a sounding square whose divider has run out starts a period. -/
theorem clock_starts_period (hs : ¬ Silent c q) (h0 : q.timerCount = 0) : clock c q = q.inPeriod c 0 1 := by
  have hduty : BitVec.ofNat 3 (q.dutyCount.toNat + 0 + 1) = q.dutyCount + 1 := by simp [BitVec.ofNat_add]
  rw [clock_reload c q hs h0, Square.inPeriod, hduty, Nat.mul_comm 2]

/-- Within a period a clock counts the divider down and leaves the duty step. -/
theorem clock_inPeriod (hs : ¬ Silent c q) (hr : r < 2 * (q.timer + 1)) :
    clock c (q.inPeriod c n r) = q.inPeriod c n (r + 1) := by
  have hcount : (q.inPeriod c n r).timerCount ≠ 0 := Nat.sub_ne_zero_of_lt hr
  rw [clock_count c (q.inPeriod c n r) hs hcount, Square.inPeriod_sounding]
  rfl

/-- The clock after the last of a period starts the next. -/
theorem clock_inPeriod_last (hs : ¬ Silent c q) :
    clock c (q.inPeriod c n (2 * (q.timer + 1))) = q.inPeriod c (n + 1) 1 := by
  have hcount : (q.inPeriod c n (2 * (q.timer + 1))).timerCount = 0 := Nat.sub_self _
  have hduty : BitVec.ofNat 3 (q.dutyCount.toNat + (n + 1) + 1) = (q.inPeriod c n (2 * (q.timer + 1))).dutyCount + 1 :=
    BitVec.ofNat_add ..
  rw [clock_reload c (q.inPeriod c n (2 * (q.timer + 1))) hs hcount, Square.inPeriod_sounding, ← hduty,
    Nat.mul_comm _ 2]
  rfl

/-- The clocks of one period after its first. -/
theorem clock_iterate_inPeriod (hs : ¬ Silent c q) (n m : Nat) (hm : m < 2 * (q.timer + 1)) :
    (clock c)^[m] (q.inPeriod c n 1) = q.inPeriod c n (m + 1) := by
  induction m with
  | zero => rfl
  | succ m ih => rw [Function.iterate_succ_apply', ih (Nat.lt_of_succ_lt hm), clock_inPeriod hs hm]

/-- Every period of `2(timer+1)` clocks leads from its first clock to the first clock of the next. -/
theorem clock_iterate_periods (hs : ¬ Silent c q) (h0 : q.timerCount = 0) (n : Nat) :
    (clock c)^[n * (2 * (q.timer + 1)) + 1] q = q.inPeriod c n 1 := by
  induction n with
  | zero => simpa using clock_starts_period hs h0
  | succ n ih =>
    have hsplit : (n + 1) * (2 * (q.timer + 1)) + 1 = (2 * q.timer + 1) + 1 + (n * (2 * (q.timer + 1)) + 1) := by ring
    rw [hsplit, Function.iterate_add_apply, ih, Function.iterate_succ_apply',
      clock_iterate_inPeriod hs n (2 * q.timer + 1) (by omega)]
    exact clock_inPeriod_last hs

/-- Any number of clocks, as whole periods and a rest of at least one clock. -/
theorem clock_iterate (hs : ¬ Silent c q) (h0 : q.timerCount = 0) (n : Nat) (hr1 : 1 ≤ r)
    (hr : r ≤ 2 * (q.timer + 1)) : (clock c)^[n * (2 * (q.timer + 1)) + r] q = q.inPeriod c n r := by
  obtain ⟨m, rfl⟩ := Nat.exists_eq_add_of_le' hr1
  rw [show n * (2 * (q.timer + 1)) + (m + 1) = m + (n * (2 * (q.timer + 1)) + 1) by ring,
    Function.iterate_add_apply, clock_iterate_periods hs h0, clock_iterate_inPeriod hs n m hr]

end period

/-- A clock closes no pitch gate: it leaves the flag and the timer. -/
theorem State.Pitched.stepc {s t : State} {k : Channel} (hp : s.Pitched k) (h : exec .stepc s = .next t) :
    t.Pitched k := by
  obtain ⟨henabled, htimer⟩ := hp
  refine ⟨(squareEnabled_of_stepc h k).trans henabled, ?_⟩
  rw [square_of_stepc_pitched h ⟨henabled, htimer⟩, clock_timer]
  exact htimer

/-- `n` cycles of a pitched square are `n` clocks of it. -/
theorem execAll_stepc_pitched {s : State} {k : Channel} (hp : s.Pitched k) (n : Nat) :
    ∃ t, execAll (List.replicate n .stepc) s = .next t ∧ t.square k = (clock s.cfg)^[n] (s.square k) := by
  induction n generalizing s with
  | zero => exact ⟨s, rfl, rfl⟩
  | succ n ih =>
    obtain ⟨u, hu⟩ := exec_answers_next .stepc s
    obtain ⟨t, ht, hsquare⟩ := ih (hp.stepc hu)
    refine ⟨t, (execAll_cons_next hu).trans ht, ?_⟩
    rw [hsquare, exec_cfg hu, square_of_stepc_pitched hu hp, Function.iterate_succ_apply]

/-- Settles O46: the cycles are clocks of the one square, and its clocks run through its periods. -/
theorem dutyStepAdvancesOncePerPeriod : Obligations.DutyStepAdvancesOncePerPeriod := by
  intro s k n r hp hs h0 hr1 hr
  obtain ⟨t, ht, hsquare⟩ := execAll_stepc_pitched hp (n * (2 * ((s.square k).timer + 1)) + r)
  exact ⟨t, ht, hsquare.trans (clock_iterate hs h0 n hr1 hr)⟩

end Sys2Proof.Machine
end

section
/-! PROOFS. The triangle (spec/42_triangle_oscillator.md): its run through the table (R193, R194), and that nothing of it
but its length reaches the stream, a read or a square (R196, R197). -/

namespace Sys2Proof.Machine

/-! ## The run through the table (R193, R194) -/

/-- Counting up by `n`, written with numbers. -/
theorem ofNat_toNat_add_mod {w : Nat} (x : BitVec w) (n : Nat) :
    BitVec.ofNat w ((x.toNat + n) % 2 ^ w) = x + BitVec.ofNat w n := by
  apply BitVec.eq_of_toNat_eq
  simp [BitVec.toNat_add]

section run
variable {s t : State} (hc : s.TriangleClocked)
include hc

/-- A clocked triangle stays clocked: a cycle leaves the parameters, the enable flag and the triangle's timer. -/
theorem State.TriangleClocked.stepc (h : exec .stepc s = .next t) : t.TriangleClocked := by
  have htri := (tri_of_stepc h).trans (cycledTri_of_clocked hc)
  obtain ⟨hcfg, henabled, htimer⟩ := hc
  refine ⟨(exec_cfg h).symm ▸ hcfg, ?_, htri ▸ htimer⟩
  cases h
  exact henabled

/-- The step index counts the cycles, and the sample is the entry the last of them looked up. -/
theorem execAll_stepc_triangle (n : Nat) :
    ∃ t, execAll (List.replicate (n + 1) .stepc) s = .next t ∧
      t.apu.tri = { s.apu.tri with
        sample := triEntry (s.apu.tri.counter + BitVec.ofNat 5 n)
        counter := s.apu.tri.counter + BitVec.ofNat 5 (n + 1) } := by
  induction n generalizing s with
  | zero =>
    obtain ⟨t, ht⟩ := exec_answers_next .stepc s
    refine ⟨t, execAll_cons_next ht, ?_⟩
    rw [tri_of_stepc ht, cycledTri_of_clocked hc]
    simp
  | succ n ih =>
    obtain ⟨u, hu⟩ := exec_answers_next .stepc s
    obtain ⟨t, ht, htri⟩ := ih (hc.stepc hu)
    refine ⟨t, (execAll_cons_next hu).trans ht, ?_⟩
    have hcount (m : Nat) :
        s.apu.tri.counter + 1 + BitVec.ofNat 5 m = s.apu.tri.counter + BitVec.ofNat 5 (m + 1) := by
      rw [Nat.add_comm m 1, BitVec.ofNat_add, BitVec.add_assoc]
      rfl
    rw [htri, tri_of_stepc hu, cycledTri_of_clocked hc]
    simp only [hcount]

end run

/-- Settles O47: the machine clocks the triangle at every one of the cycles, each of which moves it one entry on. -/
theorem triangleRunsThroughItsTable : Obligations.TriangleRunsThroughItsTable := by
  intro s n hcfg henabled htimer
  obtain ⟨t, ht, htri⟩ := execAll_stepc_triangle ⟨hcfg, henabled, htimer⟩ n
  refine ⟨t, ht, ?_⟩
  rw [htri, ← ofNat_toNat_add_mod, ← ofNat_toNat_add_mod]
  rfl

/-! ## What of the triangle another part of the machine reads (R196, R197) -/

/-- The triangle's length after a channel-enable write depends on its length before (R132). -/
theorem disableTriangle_length {q r : Triangle} (h : r.length = q.length) (c : Config) (on : Bool) :
    (disableTriangle c on r).length = (disableTriangle c on q).length := by
  cases on with
  | true => exact h
  | false => rfl

theorem cycledTri_length (s : State) : s.cycledTri.length = s.apu.tri.length := by
  unfold State.cycledTri
  split
  · exact triClock_length ..
  · rfl

/-- `s` with another triangle and another enable flag of it. -/
def State.withTriangle (s : State) (r : Triangle) (enabled : Bool) : State :=
  { s with apu := { s.apu with tri := r, triangleEnabled := enabled } }

section twoTriangles
variable {s t : State} (h : SameButTriangle s t)
include h

theorem SameButTriangle.exists_eq : ∃ r enabled, r.length = s.apu.tri.length ∧ t = s.withTriangle r enabled :=
  ⟨_, _, h⟩

/-- The status read takes of the triangle its length (R136). -/
theorem SameButTriangle.statusByte : statusByte t.cfg t.apu = statusByte s.cfg s.apu := by
  obtain ⟨r, enabled, hlength, rfl⟩ := h.exists_eq
  simp [Machine.statusByte, State.withTriangle, hlength]

theorem SameButTriangle.withCalls (a : Agent) (ws : List Word) :
    SameButTriangle (s.withCalls a ws) (t.withCalls a ws) := by
  obtain ⟨r, enabled, hlength, rfl⟩ := h.exists_eq
  cases a with
  | host => exact ⟨hlength, rfl⟩
  | consumer => exact ⟨hlength, rfl⟩

theorem SameButTriangle.returnRead (v : Byte) : SameButTriangle (s.returnRead v) (t.returnRead v) :=
  ⟨h.1, congrArg (·.returnRead v) h.2⟩

/-- The push reads the squares' samples, the FIFO and its depth (R241). -/
theorem SameButTriangle.execPush : AgreeUpTo SameButTriangle (execPush s) (execPush t) := by
  obtain ⟨r, enabled, hlength, rfl⟩ := h.exists_eq
  by_cases hf : s.apu.fifo.length = fifoDepth s.cfg
  · rw [execPush_full s hf, execPush_full (s.withTriangle r enabled) hf]
    exact .next ⟨hlength, rfl⟩
  · rw [execPush_room s hf, execPush_room (s.withTriangle r enabled) hf]
    exact .next ⟨hlength, rfl⟩

theorem SameButTriangle.execPop : AgreeUpTo SameButTriangle (execPop s) (execPop t) := by
  obtain ⟨r, enabled, hlength, rfl⟩ := h.exists_eq
  cases hf : s.apu.fifo with
  | nil =>
    rw [execPop_empty s hf, execPop_empty (s.withTriangle r enabled) hf]
    exact .next ⟨hlength, rfl⟩
  | cons x rest =>
    rw [execPop_cons s x rest hf, execPop_cons (s.withTriangle r enabled) x rest hf]
    exact .next ⟨hlength, rfl⟩

/-- A cycle clocks two triangles as it finds them, and neither clock moves a length. -/
theorem SameButTriangle.execStepc : AgreeUpTo SameButTriangle (execStepc s) (execStepc t) := by
  have hlength : t.cycledTri.length = s.cycledTri.length := by rw [cycledTri_length, cycledTri_length, h.1]
  obtain ⟨r, enabled, -, rfl⟩ := h.exists_eq
  exact .next ⟨hlength, rfl⟩

theorem SameButTriangle.execRdStatus : AgreeUpTo SameButTriangle (execRdStatus s) (execRdStatus t) := by
  rw [Machine.execRdStatus, Machine.execRdStatus, h.statusByte]
  exact .next (h.returnRead _)

/-- Every transaction keeps the machines alike: what it makes of the triangle's length it makes in both, and no other
part of the machine is computed from the triangle. -/
theorem SameButTriangle.exec (i : Instr) : AgreeUpTo SameButTriangle (exec i s) (exec i t) := by
  cases i with
  | stepc => exact h.execStepc
  | push => exact h.execPush
  | pop => exact h.execPop
  | rdStatus => exact h.execRdStatus
  | rdZero => exact .next (h.returnRead 0)
  | wrEnable _ v =>
    have hdisabled := disableTriangle_length h.1 s.cfg (enableField v 2)
    obtain ⟨r, enabled, -, rfl⟩ := h.exists_eq
    exact .next ⟨hdisabled, rfl⟩
  | wrTriHi _ v =>
    obtain ⟨r, enabled, -, rfl⟩ := h.exists_eq
    exact .next ⟨rfl, rfl⟩
  | _ =>
    obtain ⟨r, enabled, hlength, rfl⟩ := h.exists_eq
    exact .next ⟨hlength, rfl⟩

end twoTriangles

/-- Settles O45: the two machines have the same agents, and every transaction keeps them alike. -/
theorem triangleReachesNoOutput : Obligations.TriangleReachesNoOutput := by
  intro s t h
  have hkept : KeptByTransactions SameButTriangle := {
    turns := fun h => by rw [h.2]
    host := fun h => by rw [h.2]
    consumer := fun h => by rw [h.2]
    withTurns := fun ts h => ⟨h.1, congrArg (·.withTurns ts) h.2⟩
    withCalls := fun a ws h => h.withCalls a ws
    exec := fun i h => h.exec i }
  exact hkept.step h

end Sys2Proof.Machine
end

section
/-! PROOFS. The frame sequencer (spec/43_frame_sequencer.md): one tick (R210 to R215), which way a sweep moves the timer
(R220), and what a number of ticks leaves of the counter, the lengths and the sweeps (R216 to R219). -/

namespace Sys2Proof.Machine

/-! ## One tick (R210 to R215) -/

theorem tickLength_toNat (c : Config) (fc : Int) (q : Square) : (tickLength c fc q).toNat =
    if fc = 4 ∧ ¬ (c.lengthDisableMode = .haltDecrement ∧ q.lengthDisabled = true) then q.length.toNat - 1
    else q.length.toNat := by
  rw [tickLength, apply_ite BitVec.toNat, decFloor_toNat]

theorem tickPeriod_toNat (fc : Int) (q : Square) :
    (tickPeriod fc q).toNat = if fc = 4 then q.sweepPeriod.toNat - 1 else q.sweepPeriod.toNat := by
  rw [tickPeriod, apply_ite BitVec.toNat, decFloor_toNat]

/-- The six cases of R214: two directions under three overflow rules. -/
theorem sweepTarget_spec (c : Config) (q : Square) : SweepTarget c q (sweepTarget c q) := by
  constructor <;> intro hneg hover <;> simp [sweepTarget, fitTimer, hneg, hover, Nat.shiftRight_eq_div_pow]

theorem tickSquare_timer (c : Config) (fc : Int) (q : Square) : (tickSquare c fc q).timer =
    if fc < 5 ∧ q.sweepEnabled = true ∧ 0 < (tickSquare c fc q).sweepPeriod.toNat then sweepTarget c q
    else q.timer := by
  rw [tickSquare_eq]

theorem tickSquare_squareTicked (c : Config) (fc : Int) (q : Square) : SquareTicked c fc q (tickSquare c fc q) where
  length := by rw [tickSquare_eq]; exact tickLength_toNat c fc q
  sweepPeriod := by rw [tickSquare_eq]; exact tickPeriod_toNat fc q
  swept hfc hon hperiod := by
    rw [tickSquare_timer, if_pos ⟨hfc, hon, hperiod⟩]
    exact sweepTarget_spec c q
  unswept hidle := (tickSquare_timer c fc q).trans (if_neg hidle)
  rest := by rw [tickSquare_eq]

section step
variable {s t : State} (h : exec .stepf s = .next t)
include h

theorem squareTicked_of_stepf (k : Channel) : SquareTicked s.cfg s.apu.frameCounter (s.square k) (t.square k) :=
  square_of_stepf h k ▸ tickSquare_squareTicked ..

theorem frameCounter_of_stepf :
    t.apu.frameCounter = nextFrameCounter s.cfg s.apu.frameMode s.apu.frameCounter := by
  cases h
  rfl

theorem frameMode_of_stepf : t.apu.frameMode = s.apu.frameMode := by
  cases h
  rfl

end step

/-- Settles O13: both squares by the one tick, the counter by `nextFrameCounter`; the frame is the form of
`execStepf`. -/
theorem stepFrameRunsOneTick : Obligations.StepFrameRunsOneTick := by
  intro s
  obtain ⟨t, h⟩ := exec_answers_next .stepf s
  refine ⟨t, h, squareTicked_of_stepf h, frameCounter_of_stepf h, ?_⟩
  cases h
  rfl

/-! ## Which way a sweep moves the timer (R220) -/

theorem State.Inv.square {s : State} (h : s.Inv) : ∀ k, SquareInv s.cfg (s.square k)
  | .one => h.sq1
  | .two => h.sq2

section direction
variable {c : Config} {q : Square} {r : Nat} (h : SweepTarget c q r)
include h

/-- A subtracting sweep has nothing to fit: the difference stays within the range of the timer. -/
theorem SweepTarget.eq_sub (hneg : q.negative = true) (htimer : c.sweepOverflow ≠ .unbounded → q.timer ≤ 2047) :
    r = q.timer - q.timer >>> q.shift.toNat := by
  rw [Nat.shiftRight_eq_div_pow]
  have hsub := Nat.sub_le q.timer (q.timer / 2 ^ q.shift.toNat)
  cases ho : c.sweepOverflow with
  | unbounded => exact h.subtract hneg ho
  | wrap11 =>
    have hle := htimer (by simp [ho])
    exact (h.subtractWrap hneg ho).trans (Nat.mod_eq_of_lt (Nat.lt_succ_of_le (hsub.trans hle)))
  | saturate11 =>
    have hle := htimer (by simp [ho])
    exact (h.subtractSaturate hneg ho).trans (Nat.min_eq_left (hsub.trans hle))

theorem SweepTarget.subtracting (hneg : q.negative = true)
    (htimer : c.sweepOverflow ≠ .unbounded → q.timer ≤ 2047) :
    r ≤ q.timer ∧ (r < q.timer ↔ 0 < q.timer >>> q.shift.toNat) := by
  have hr := h.eq_sub hneg htimer
  have hshift := Nat.shiftRight_le q.timer q.shift.toNat
  generalize q.timer >>> q.shift.toNat = d at *
  omega

theorem SweepTarget.adding_unbounded (hneg : q.negative = false) (ho : c.sweepOverflow = .unbounded) :
    q.timer ≤ r ∧ (q.timer < r ↔ 0 < q.timer >>> q.shift.toNat) := by
  have hr := h.add hneg ho
  rw [← Nat.shiftRight_eq_div_pow] at hr
  generalize q.timer >>> q.shift.toNat = d at *
  omega

theorem SweepTarget.adding_saturate11 (hneg : q.negative = false) (ho : c.sweepOverflow = .saturate11)
    (htimer : q.timer ≤ 2047) :
    q.timer ≤ r ∧ (q.timer < r ↔ 0 < q.timer >>> q.shift.toNat ∧ q.timer < 2047) := by
  have hr := h.addSaturate hneg ho
  rw [← Nat.shiftRight_eq_div_pow] at hr
  generalize q.timer >>> q.shift.toNat = d at *
  omega

/-- A sum past 2047 wraps to at most the old timer, since the shifted amount is at most 2047. -/
theorem SweepTarget.adding_wrap11 (hneg : q.negative = false) (ho : c.sweepOverflow = .wrap11)
    (htimer : q.timer ≤ 2047) :
    q.timer < r ↔ 0 < q.timer >>> q.shift.toNat ∧ q.timer + q.timer >>> q.shift.toNat ≤ 2047 := by
  have hr := h.addWrap hneg ho
  rw [← Nat.shiftRight_eq_div_pow] at hr
  have hshift := Nat.shiftRight_le q.timer q.shift.toNat
  generalize q.timer >>> q.shift.toNat = d at *
  omega

end direction

/-- Settles O53: the tick leaves the target of R214 in the timer, and each case of the target is arithmetic within 11
bits. -/
theorem sweepMovesTheTimerInItsDirection : Obligations.SweepMovesTheTimerInItsDirection := by
  intro s t k hinv h
  have hticked := squareTicked_of_stepf h k
  have htimer := (hinv.square k).timer
  refine ⟨fun hoff => hticked.unswept (by simp [hoff]), fun hfc hon hperiod => ?_⟩
  have htarget := hticked.swept hfc hon hperiod
  exact ⟨fun hneg => htarget.subtracting hneg htimer, htarget.adding_unbounded,
    fun hneg ho => htarget.adding_saturate11 hneg ho (htimer (by simp [ho])),
    fun hneg ho => htarget.adding_wrap11 hneg ho (htimer (by simp [ho]))⟩

/-! ## A number of ticks, by the counters they see -/

/-- The square after `n` ticks, of which the `i`-th sees the frame counter `seen i`. -/
def Square.ticked (c : Config) (seen : Nat → Int) (q : Square) : Nat → Square
  | 0 => q
  | n + 1 => tickSquare c (seen n) (q.ticked c seen n)

/-- The ticks from `s` on see the frame counters `seen 0`, `seen 1`, ... -/
structure State.Sees (s : State) (seen : Nat → Int) : Prop where
  start : seen 0 = s.apu.frameCounter
  next : ∀ n, seen (n + 1) = nextFrameCounter s.cfg s.apu.frameMode (seen n)

theorem execAll_stepf {s : State} {seen : Nat → Int} (h : s.Sees seen) (n : Nat) :
    ∃ t, execAll (List.replicate n .stepf) s = .next t ∧ t.cfg = s.cfg ∧ t.apu.frameMode = s.apu.frameMode ∧
      t.apu.frameCounter = seen n ∧ ∀ k, t.square k = (s.square k).ticked s.cfg seen n := by
  induction n with
  | zero => exact ⟨s, rfl, rfl, rfl, h.start.symm, fun _ => rfl⟩
  | succ n ih =>
    obtain ⟨u, hu, hcfg, hmode, hcounter, hsquare⟩ := ih
    obtain ⟨t, ht⟩ := exec_answers_next .stepf u
    refine ⟨t, ?_, (exec_cfg ht).trans hcfg, (frameMode_of_stepf ht).trans hmode, ?_, fun k => ?_⟩
    · rw [List.replicate_succ', execAll_append hu, execAll_cons_next ht, execAll_nil]
    · rw [frameCounter_of_stepf ht, hcfg, hmode, hcounter, h.next]
    · rw [square_of_stepf ht, hcfg, hcounter, hsquare, Square.ticked]

/-- Under `literal` the ticks see ever lower counters. -/
theorem State.sees_literal {s : State} (h : s.cfg.frameWrap = .literal) : s.Sees fun n => s.apu.frameCounter - n where
  start := by simp
  next n := by
    rw [nextFrameCounter_literal _ _ _ h]
    omega

@[simp] theorem frameModeNumber_four_toNat : (frameModeNumber .four).toNat = 4 := rfl

@[simp] theorem frameModeNumber_five_toNat : (frameModeNumber .five).toNat = 5 := rfl

/-- The counter after `n` ticks from the start of a sequence that repeats (R216). -/
def FrameMode.counterAt (m : FrameMode) (n : Nat) : Int := frameModeNumber m - (n : Int) % frameModeNumber m

theorem FrameMode.counterAt_four (n : Nat) : FrameMode.counterAt .four n = 4 - (n : Int) % 4 := rfl

theorem FrameMode.counterAt_five (n : Nat) : FrameMode.counterAt .five n = 5 - (n : Int) % 5 := rfl

/-- Under `reload` the ticks from the start of a sequence see the counter run down it again and again. -/
theorem State.sees_reload {s : State} (h : s.cfg.frameWrap = .reload)
    (hstart : s.apu.frameCounter = frameModeNumber s.apu.frameMode) : s.Sees s.apu.frameMode.counterAt where
  start := by simp [FrameMode.counterAt, hstart]
  next n := by
    rw [nextFrameCounter_reload _ _ _ h]
    cases s.apu.frameMode with
    | four => simp only [FrameMode.counterAt_four, frameModeNumber]; split_ifs <;> omega
    | five => simp only [FrameMode.counterAt_five, frameModeNumber]; split_ifs <;> omega

/-- Settles O49: the counters a repeating sequence shows are its values after so many ticks. -/
theorem frameCounterRepeatsUnderReload : Obligations.FrameCounterRepeatsUnderReload := by
  intro s n hwrap hstart
  obtain ⟨t, ht, -, hmode, hcounter, -⟩ := execAll_stepf (State.sees_reload hwrap hstart) n
  exact ⟨t, ht, hmode, hcounter⟩

/-! ## What the ticks leave of a square -/

/-- Tick `i`, where the countdown before all the ticks is `p`, sweeps: R213 reads the countdown after the tick's own
decrement. -/
abbrev SweepsAt (seen : Nat → Int) (p i : Nat) : Prop :=
  seen i < 5 ∧ 0 < p - Nat.count (fun j => seen j = 4) (i + 1)

section ticked
variable {c : Config} {seen : Nat → Int} {q : Square}

/-- Ticks change a square's length, sweep countdown and timer, and nothing else. -/
theorem Square.ticked_frame (n : Nat) : q.ticked c seen n = { q with
    length := (q.ticked c seen n).length
    sweepPeriod := (q.ticked c seen n).sweepPeriod
    timer := (q.ticked c seen n).timer } := by
  induction n with
  | zero => rfl
  | succ n ih =>
    have hrest : q.ticked c seen (n + 1) = { q.ticked c seen n with
        length := (q.ticked c seen (n + 1)).length
        sweepPeriod := (q.ticked c seen (n + 1)).sweepPeriod
        timer := (q.ticked c seen (n + 1)).timer } := (tickSquare_squareTicked ..).rest
    rw [hrest, ih]

theorem Square.ticked_sweepPeriod (n : Nat) :
    (q.ticked c seen n).sweepPeriod.toNat = q.sweepPeriod.toNat - Nat.count (fun i => seen i = 4) n := by
  induction n with
  | zero => rfl
  | succ n ih =>
    rw [Square.ticked, (tickSquare_squareTicked ..).sweepPeriod, ih, Nat.count_succ]
    split <;> omega

theorem Square.ticked_length (hcounts : ¬ (c.lengthDisableMode = .haltDecrement ∧ q.lengthDisabled = true))
    (n : Nat) :
    (q.ticked c seen n).length.toNat = q.length.toNat - Nat.count (fun i => seen i = 4) n := by
  induction n with
  | zero => rfl
  | succ n ih =>
    have hflag : (q.ticked c seen n).lengthDisabled = q.lengthDisabled := by rw [Square.ticked_frame]
    rw [Square.ticked, (tickSquare_squareTicked ..).length, hflag, ih, Nat.count_succ]
    simp only [hcounts, not_false_eq_true, and_true]
    split <;> omega

/-- Each sweep adjusts the timer that the one before it left. -/
theorem Square.ticked_timer (hon : q.sweepEnabled = true) (n : Nat) : (q.ticked c seen n).timer =
    (fun x => sweepTarget c { q with timer := x })^[Nat.count (SweepsAt seen q.sweepPeriod.toNat) n] q.timer := by
  induction n with
  | zero => rfl
  | succ n ih =>
    have hflag : (q.ticked c seen n).sweepEnabled = true := by rw [Square.ticked_frame]; exact hon
    have htarget : sweepTarget c (q.ticked c seen n) = sweepTarget c { q with timer := (q.ticked c seen n).timer } := by
      rw [Square.ticked_frame]
      rfl
    rw [Nat.count_succ, Square.ticked, tickSquare_timer, ← Square.ticked, Square.ticked_sweepPeriod, hflag,
      htarget, ih]
    by_cases hsweeps : SweepsAt seen q.sweepPeriod.toNat n
    · rw [if_pos ⟨hsweeps.1, rfl, hsweeps.2⟩, if_pos hsweeps, Function.iterate_succ_apply']
    · rw [if_neg fun hact => hsweeps ⟨hact.1, hact.2.2⟩, if_neg hsweeps, Nat.add_zero]

end ticked

/-! ## How many of the ticks are half-frame and sweep ticks -/

/-- A counter that only falls passes 4 once (R217). -/
theorem count_halfFrames_literal (fc : Int) (n : Nat) :
    Nat.count (fun i : Nat => fc - i = 4) n = if 4 ≤ fc ∧ fc - n < 4 then 1 else 0 := by
  induction n with
  | zero =>
    rw [Nat.count_zero, if_neg (by omega)]
  | succ n ih =>
    rw [Nat.count_succ, ih]
    split_ifs <;> omega

/-- The half-frame tick is the first of a 4-step and the second of a 5-step sequence (R211). -/
theorem count_halfFrames_reload (m : FrameMode) (n : Nat) :
    Nat.count (fun i => m.counterAt i = 4) n = (n + 3) / (frameModeNumber m).toNat := by
  induction n with
  | zero => cases m <;> rfl
  | succ n ih =>
    rw [Nat.count_succ, ih]
    cases m with
    | four =>
      have hcounter := FrameMode.counterAt_four n
      rw [frameModeNumber_four_toNat]
      split <;> omega
    | five =>
      have hcounter := FrameMode.counterAt_five n
      rw [frameModeNumber_five_toNat]
      split <;> omega

/-- In 4-step mode every tick is a sweep tick, up to the sequence that takes the countdown to 0. -/
theorem count_sweeps_four (p n : Nat) :
    Nat.count (SweepsAt (FrameMode.counterAt .four) p) n = min n (4 * (p - 1)) := by
  induction n with
  | zero => simp
  | succ n ih =>
    have hcounter := FrameMode.counterAt_four n
    have hperiod := count_halfFrames_reload .four (n + 1)
    rw [frameModeNumber_four_toNat] at hperiod
    rw [Nat.count_succ, ih]
    split <;> omega

/-- In 5-step mode the first tick of every sequence is no sweep tick. -/
theorem count_sweeps_five (p n : Nat) :
    Nat.count (SweepsAt (FrameMode.counterAt .five) p) n = min (n - (n + 4) / 5) (4 * (p - 1)) := by
  induction n with
  | zero => simp
  | succ n ih =>
    have hcounter := FrameMode.counterAt_five n
    have hperiod := count_halfFrames_reload .five (n + 1)
    rw [frameModeNumber_five_toNat] at hperiod
    rw [Nat.count_succ, ih]
    split <;> omega

/-- Whole sequences as many as the countdown hold all its sweep ticks, and no later tick is one (R219). -/
theorem count_sweeps_exhausted (m : FrameMode) (p n : Nat) :
    Nat.count (SweepsAt m.counterAt p) ((frameModeNumber m).toNat * p + n) = 4 * (p - 1) := by
  cases m with
  | four => rw [count_sweeps_four, frameModeNumber_four_toNat]; omega
  | five => rw [count_sweeps_five, frameModeNumber_five_toNat]; omega

/-! ## Lengths and sweeps over a number of ticks (R217 to R219) -/

/-- Settles O50: a falling counter sees at most one half-frame tick. -/
theorem frameCounterFallsUnderLiteral : Obligations.FrameCounterFallsUnderLiteral := by
  intro s n hwrap
  obtain ⟨t, ht, -, -, hcounter, hsquare⟩ := execAll_stepf (State.sees_literal hwrap) n
  refine ⟨t, ht, hcounter, fun hmode k => ?_⟩
  rw [hsquare, Square.ticked_length fun hhalt => hmode hhalt.1, count_halfFrames_literal]

/-- The length after any number of ticks from the start of a repeating sequence. -/
theorem execAll_stepf_length {s : State} {k : Channel} (hwrap : s.cfg.frameWrap = .reload)
    (hcounts : ¬ (s.cfg.lengthDisableMode = .haltDecrement ∧ (s.square k).lengthDisabled = true))
    (hstart : s.apu.frameCounter = frameModeNumber s.apu.frameMode) (n : Nat) :
    ∃ t, execAll (List.replicate n .stepf) s = .next t ∧ (t.square k).length.toNat =
      (s.square k).length.toNat - (n + 3) / (frameModeNumber s.apu.frameMode).toNat := by
  obtain ⟨t, ht, -, -, -, hsquare⟩ := execAll_stepf (State.sees_reload hwrap hstart) n
  exact ⟨t, ht, by rw [hsquare, Square.ticked_length hcounts, count_halfFrames_reload]⟩

/-- Settles O51: `(N + 3) / 4` or `(N + 3) / 5` of `N` ticks are half-frame ticks. -/
theorem lengthCountsHalfFrameTicks : Obligations.LengthCountsHalfFrameTicks := by
  intro s k n hwrap hcounts hstart
  have hlength := execAll_stepf_length hwrap hcounts hstart
  have hafter {N d : Nat} (hd : (N + 3) / (frameModeNumber s.apu.frameMode).toNat = d) :
      ∃ t, execAll (List.replicate N .stepf) s = .next t ∧
        (t.square k).length.toNat = (s.square k).length.toNat - d := hd ▸ hlength N
  refine ⟨fun hmode => ?_, fun hmode => ?_⟩
  · rw [hmode, frameModeNumber_four_toNat] at hafter
    exact ⟨hafter (by omega), fun r h1 h4 => hafter (by omega)⟩
  · rw [hmode, frameModeNumber_five_toNat] at hafter
    exact ⟨hafter (by omega), fun r h2 h6 => hafter (by omega)⟩

/-- Settles O52: the timer counts the sweep ticks, of which a countdown of `p` has `4(p - 1)`. -/
theorem sweepActsFourTimesPerRemainingPeriod : Obligations.SweepActsFourTimesPerRemainingPeriod := by
  intro s k n hwrap hstart hon _
  obtain ⟨t, ht, -, -, -, hsquare⟩ := execAll_stepf (State.sees_reload hwrap hstart)
    ((frameModeNumber s.apu.frameMode).toNat * (s.square k).sweepPeriod.toNat + n)
  refine ⟨t, ht, ?_, BitVec.eq_of_toNat_eq ?_⟩
  · rw [hsquare, Square.ticked_timer hon, count_sweeps_exhausted]
  · rw [hsquare, Square.ticked_sweepPeriod, count_halfFrames_reload]
    refine Nat.sub_eq_zero_of_le ?_
    cases s.apu.frameMode with
    | four => rw [frameModeNumber_four_toNat]; omega
    | five => rw [frameModeNumber_five_toNat]; omega

end Sys2Proof.Machine
end

section
/-! PROOFS. The mixer and the output stream (spec/44_mixer_output.md): the mixing function (R241, R242, R245), a push and
a pop (R240, R243, R244, R246), and a host held on a full FIFO (R244, spec/60_exceptions.md R273). -/

namespace Sys2Proof.Machine

/-! ## The mixing function (R241, R242, R245) -/

/-- The sum of two samples as an index of the table: the mixer reads no more of them (R241). -/
def mixSum (a b : BitVec 4) : Fin 31 := ⟨a.toNat + b.toNat, by have := a.isLt; have := b.isLt; omega⟩

theorem mix_eq_mixTable (a b : BitVec 4) : mix a b = mixTable[(mixSum a b).val] := rfl

theorem mixTable_toNat_strictMono : StrictMono fun j : Fin 31 => mixTable[j.val].toNat :=
  Fin.strictMono_iff_lt_succ.2 (by decide)

/-- The table is the formula at every sum, in binary64 (D21) and over the rationals. -/
theorem mixTable_eq_formula : ∀ j : Fin 31, 0 < j.val →
    mixTable[j.val].toNat = truncFormula j ∧
    mixTable[j.val].toNat = 470010936 * j / (812800 + 10000 * j) := by decide

/-- Settles O17: the mixed sample is an entry of the table, and every entry but the first is the formula. -/
theorem mixIsTheTruncatedFormula : Obligations.MixIsTheTruncatedFormula :=
  ⟨rfl, fun a b => mixTable_eq_formula (mixSum a b)⟩

/-- Settles O18: the mixed sample is the entry of the table at the sum, and the entries increase. -/
theorem mixIsStrictlyIncreasingInTheSum : Obligations.MixIsStrictlyIncreasingInTheSum := by
  refine ⟨rfl, rfl, fun a b a' b' => ⟨fun hlt => ?_, fun heq => ?_⟩⟩
  · have hsum : mixSum a b < mixSum a' b' := hlt
    exact mixTable_toNat_strictMono hsum
  · have hsum : mixSum a b = mixSum a' b' := Fin.ext heq
    simp only [mix_eq_mixTable, hsum]

/-! ## A push and a pop (R240, R243, R244, R246) -/

/-- Settles O14: the updates of a push with room, written out. -/
theorem pushWithRoomAppendsMixedSample : Obligations.PushWithRoomAppendsMixedSample := execPush_room

/-- Settles O15: the update of a push to a full FIFO, written out. -/
theorem pushToFullFifoHoldsHost : Obligations.PushToFullFifoHoldsHost := execPush_full

/-- Settles O16: the updates of a pop in its two cases, written out. -/
theorem popDeliversHeadOrWaits : Obligations.PopDeliversHeadOrWaits := ⟨execPop_cons, execPop_empty⟩

/-! ## What each end of the stream leaves of the host -/

/-- A push, held or completed, takes no call of the host's and answers no read. -/
theorem execPush_host {s t : State} (h : execPush s = .next t) : t.host = { s.host with held := t.host.held } := by
  by_cases hf : s.apu.fifo.length = fifoDepth s.cfg
  · rw [execPush_full s hf] at h
    cases h
    rfl
  · rw [execPush_room s hf] at h
    cases h
    rfl

theorem execPop_host {s t : State} (h : execPop s = .next t) : t.host = s.host := by
  cases hf : s.apu.fifo with
  | nil =>
    rw [execPop_empty s hf] at h
    cases h
    rfl
  | cons x rest =>
    rw [execPop_cons s x rest hf] at h
    cases h
    rfl

/-- The consumer's only transaction is the pop (60_exceptions.md R276). -/
theorem agentOf_eq_consumer {i : Instr} (h : agentOf i = .consumer) : i = .pop := by
  cases i with
  | pop => rfl
  | _ => cases h

/-! ## While the host is held (R244) -/

/-- While the host is held, a step that answers runs at most the held push again or a pop of the consumer, from a state
with the block and the host of `s`. -/
theorem step_cases_of_host_held {s t : State} (hheld : s.host.held = true) (h : step s = .next t) :
    (t.apu = s.apu ∧ t.host = s.host) ∨
    ∃ u, u.apu = s.apu ∧ u.host = s.host ∧ (execPush u = .next t ∨ execPop u = .next t) := by
  obtain ⟨-, rfl⟩ | ⟨a, ts, -, ⟨-, -, rfl⟩ | ⟨-, hexec⟩ | ⟨w, ws, i, hfree, -, -, hagent, hexec⟩⟩ := step_cases h
  · exact .inl ⟨rfl, rfl⟩
  · exact .inl ⟨rfl, rfl⟩
  · cases a with
    | host => exact .inr ⟨s.withTurns ts, rfl, rfl, .inl hexec⟩
    | consumer => exact .inr ⟨s.withTurns ts, rfl, rfl, .inr hexec⟩
  · cases a with
    | host => cases hheld.symm.trans hfree
    | consumer =>
      obtain rfl := agentOf_eq_consumer hagent
      exact .inr ⟨(s.withTurns ts).withCalls .consumer ws, rfl, rfl, .inr hexec⟩

/-- Settles O37: all a step can run while the host is held is a push or a pop, and neither reaches more of the block than
the FIFO or more of the host than its hold. -/
theorem heldHostFreezesTheBlock : Obligations.HeldHostFreezesTheBlock := by
  intro s t hheld hstep
  obtain ⟨hapu, hhost⟩ | ⟨u, hapu, hhost, hpush | hpop⟩ := step_cases_of_host_held hheld hstep
  · rw [hapu, hhost]
    exact ⟨rfl, rfl, rfl⟩
  · rw [execPush_host hpush, hhost]
    exact ⟨hapu ▸ execPush_apu hpush, rfl, rfl⟩
  · rw [execPop_host hpop, hhost]
    exact ⟨hapu ▸ execPop_apu hpop, rfl, rfl⟩

theorem holdHost_of_held {s : State} (hheld : s.host.held = true) : s.holdHost true = s := by
  unfold State.holdHost
  rw [← hheld]

/-- A turn of a held host makes its push again. -/
theorem step_of_host_held {s : State} {ts : List Agent} (hturns : s.turns = .host :: ts)
    (hheld : s.host.held = true) : step s = execPush (s.withTurns ts) :=
  step_fetched_run (fetched_of_held hturns hheld)

/-! ## The hang (R273, R307) -/

/-- With the FIFO full and no turn of the consumer to come, a held host's step takes the turn off and nothing else. -/
theorem step_of_host_hung {s : State} (hheld : s.host.held = true)
    (hfull : s.apu.fifo.length = fifoDepth s.cfg) (hturns : Agent.consumer ∉ s.turns) :
    step s = .next (s.withTurns s.turns.tail) := by
  cases ht : s.turns with
  | nil => rw [step_of_no_turn ht, List.tail_nil, ← ht]; rfl
  | cons a ts =>
    cases a with
    | consumer => exact absurd (ht ▸ List.mem_cons_self) hturns
    | host =>
      have hstay : (s.withTurns ts).holdHost true = s.withTurns ts := holdHost_of_held hheld
      rw [step_of_host_held ht hheld, execPush_full (s.withTurns ts) hfull, hstay, List.tail_cons]

/-- A run of a hung machine takes its turns off, one a step, and nothing else. -/
theorem run_of_host_hung {s : State} (n : Nat) (hheld : s.host.held = true)
    (hfull : s.apu.fifo.length = fifoDepth s.cfg) (hturns : Agent.consumer ∉ s.turns) :
    core.run n s = .next (s.withTurns (s.turns.drop n)) := by
  induction n generalizing s with
  | zero => rfl
  | succ n ih =>
    have hrest : Agent.consumer ∉ s.turns.tail := fun h => hturns (List.mem_of_mem_tail h)
    rw [run_succ_next n (step_of_host_hung hheld hfull hturns), ih (s := s.withTurns s.turns.tail) hheld hfull hrest,
      State.withTurns_turns, List.drop_tail]
    rfl

/-- Settles O35: the hang is kept from step to step, and only `turns` gets shorter. -/
theorem heldHostHangsWithoutTheConsumer : Obligations.HeldHostHangsWithoutTheConsumer :=
  fun n _ hheld hfull hturns => ⟨_, run_of_host_hung n hheld hfull hturns, rfl, rfl, rfl⟩

/-! ## What lifts the hold (R244, R246) -/

/-- A turn on which the consumer pops, for the first time or again, runs the pop with at most a call taken off. -/
theorem step_of_consumer_pop {s : State} {ts : List Agent} (hturns : s.turns = .consumer :: ts)
    (hpop : s.consumer.held = true ∨ ∃ ws, s.consumer.calls = encode .pop :: ws) :
    ∃ ws, step s = execPop ((s.withTurns ts).withCalls .consumer ws) := by
  cases hheld : s.consumer.held with
  | true => exact ⟨s.consumer.calls, step_fetched_run (fetched_of_held hturns hheld)⟩
  | false =>
    obtain ⟨ws, hcalls⟩ := hpop.resolve_left (by simp [hheld])
    exact ⟨ws, step_fetched_run (fetched_of_call hturns hheld hcalls (decodeOfEncodeIsIdentity .pop rfl) rfl)⟩

theorem run_two_next {s u t : State} (h : step s = .next u) (h' : step u = .next t) : core.run 2 s = .next t := by
  rw [run_succ_next 1 h, run_succ_next 0 h', run_zero]

/-- Settles O36: the pop leaves the FIFO one sample short of full, so the held push, made again, has room. -/
theorem popLetsTheHeldPushComplete : Obligations.PopLetsTheHeldPushComplete := by
  intro s ts x rest hturns hheld hfifo hfull hpop
  obtain ⟨ws, hfirst⟩ := step_of_consumer_pop hturns hpop
  have hlength : rest.length + 1 = fifoDepth s.cfg := by rw [← hfull, hfifo, List.length_cons]
  have hroom : rest.length ≠ fifoDepth s.cfg := by omega
  exact ⟨_, run_two_next (hfirst.trans (execPop_cons _ x rest hfifo))
    (Eq.trans (step_of_host_held rfl hheld) (execPush_room _ hroom)), rfl, rfl, rfl, rfl⟩

end Sys2Proof.Machine
end

section
/-! PROOFS. The step and the transactions it runs (spec/60_exceptions.md): none faults (R270), what each turn of an agent
comes to (R273, R276), and that the consumer reaches only the head of the FIFO (R274, R276). -/

namespace Sys2Proof.Machine

/-! ## What the consumer reaches (R274, R276) -/

/-- All a turn of the consumer can run is the pop, for the first time or again, with at most a call taken off. -/
theorem step_cases_of_consumer_turn {s t : State} {ts : List Agent} (hturns : s.turns = .consumer :: ts)
    (h : step s = .next t) :
    t = s.withTurns ts ∨ ∃ ws, execPop ((s.withTurns ts).withCalls .consumer ws) = .next t := by
  obtain ⟨hnone, -⟩ | ⟨a, ts', hturns', hcases⟩ := step_cases h
  · cases hturns.symm.trans hnone
  · cases hturns.symm.trans hturns'
    obtain ⟨-, -, hidle⟩ | ⟨-, hexec⟩ | ⟨w, ws, i, -, -, -, hagent, hexec⟩ := hcases
    · exact .inl hidle
    · exact .inr ⟨s.consumer.calls, hexec⟩
    · obtain rfl := agentOf_eq_consumer hagent
      exact .inr ⟨ws, hexec⟩

/-- A pop that answers leaves both ends of the stream, or hands the head of the FIFO to the consumer. -/
theorem execPop_stream_cases {s t : State} (h : execPop s = .next t) :
    (t.apu.fifo = s.apu.fifo ∧ t.consumer.received = s.consumer.received) ∨
    ∃ x, s.apu.fifo = x :: t.apu.fifo ∧ t.consumer.received = s.consumer.received ++ [x] := by
  obtain ⟨hreceived, hfifo⟩ := execPop_moves h
  cases hf : s.apu.fifo with
  | nil => exact .inl (by simpa [hf] using And.intro hfifo hreceived)
  | cons x rest => exact .inr ⟨x, by simpa [hf] using And.intro hfifo.symm hreceived⟩

/-- Settles O38: the turn runs at most a pop, which reaches no parameter, nothing of the host, and of the block the FIFO. -/
theorem consumerReachesOnlyTheStream : Obligations.ConsumerReachesOnlyTheStream := by
  intro s t ts hturns hstep
  obtain rfl | ⟨ws, hpop⟩ := step_cases_of_consumer_turn hturns hstep
  · exact ⟨rfl, rfl, rfl, .inl ⟨rfl, rfl⟩⟩
  · have hcfg := execPop_cfg hpop
    have hhost := execPop_host hpop
    have hapu := execPop_apu hpop
    have hstream := execPop_stream_cases hpop
    exact ⟨hcfg, hhost, hapu, hstream⟩

/-! ## What each turn comes to (R270, R273, R276) -/

/-- Settles O24: the agent's next call is what the step fetches. -/
theorem stepRunsTheDecodedCall : Obligations.StepRunsTheDecodedCall :=
  fun _ _ _ _ _ _ hturns hheld hcalls hdecode hagent =>
    step_fetched_run (fetched_of_call hturns hheld hcalls hdecode hagent)

theorem step_of_no_call {s : State} {a : Agent} {ts : List Agent} (hturns : s.turns = a :: ts)
    (hheld : s.isHeld a = false) (hcalls : s.callsOf a = []) : step s = .next (s.withTurns ts) := by
  rw [step_fetched_idle (fetched_of_no_call hturns hheld hcalls), hturns, List.tail_cons]

/-- Settles O25: a held agent fetches the call it is held in, and an agent with no call fetches nothing. -/
theorem heldAndIdleAgentsMakeNoNewCall : Obligations.HeldAndIdleAgentsMakeNoNewCall :=
  ⟨fun _ _ hturns hheld => step_of_host_held hturns hheld,
    fun _ _ hturns hheld => step_fetched_run (fetched_of_held hturns hheld),
    fun _ _ _ hturns hheld hcalls => step_of_no_call hturns hheld hcalls,
    fun _ hturns => step_of_no_turn hturns⟩

/-- Settles O27: each transaction answers a next state, push and pop on both sides of their test. -/
theorem everyTransactionHasANextState : Obligations.EveryTransactionHasANextState := exec_answers_next

end Sys2Proof.Machine
end

section
/-! PROOFS. The block after reset (spec/70_reset_and_hazards.md): while no gate of `stepCycle` is open, no number of
cycles moves the state (R292). -/

namespace Sys2Proof.Machine

/-- A transaction that leaves a state leaves it any number of times. -/
theorem execAll_replicate_fixed {i : Instr} {s : State} (h : exec i s = .next s) (n : Nat) :
    execAll (List.replicate n i) s = .next s := by
  induction n with
  | zero => rfl
  | succ n ih => rw [List.replicate_succ, execAll_cons_next h, ih]

/-- With every gate of `stepCycle` closed a cycle leaves the whole state (R166, R190). -/
theorem exec_stepc_of_gates_closed {s : State} (hpitch : ∀ k, ¬ s.Pitched k) (htri : ¬ s.TriangleClocked) :
    exec .stepc s = .next s := by
  obtain ⟨t, ht, -, hkept, htriangle, hframe⟩ := stepCycleClocksTheOscillators s
  have hsq1 : t.apu.sq1 = s.apu.sq1 := hkept .one (hpitch .one)
  have hsq2 : t.apu.sq2 = s.apu.sq2 := hkept .two (hpitch .two)
  have htriKept : t.apu.tri = s.apu.tri := htriangle.trans (if_neg htri)
  rw [hsq1, hsq2, htriKept] at hframe
  have hsame : t = s := hframe
  rwa [hsame] at ht

theorem State.not_pitched_of_disabled {s : State} {k : Channel} (h : s.squareEnabled k = false) : ¬ s.Pitched k :=
  fun ⟨henabled, _⟩ => Bool.eq_false_iff.mp h henabled

theorem State.not_triangleClocked_of_disabled {s : State} (h : s.apu.triangleEnabled = false) : ¬ s.TriangleClocked :=
  fun ⟨_, henabled, _⟩ => Bool.eq_false_iff.mp h henabled

/-- Settles O48: a disabled channel's gate is closed, so the state is a fixed point of the cycle. -/
theorem disabledChannelsAreNotClocked : Obligations.DisabledChannelsAreNotClocked := by
  intro s n hsquares htriangle
  have hfixed : exec .stepc s = .next s :=
    exec_stepc_of_gates_closed (fun k => State.not_pitched_of_disabled (hsquares k))
      (State.not_triangleClocked_of_disabled htriangle)
  exact execAll_replicate_fixed hfixed n

end Sys2Proof.Machine
end
